-- ==== Sys2Proof/Word.lean ====
section
/-! DEFINITION. The two word types of the block: the byte, which is the unit of the link and of the Ingest Queue
(rule R7), and the 16-bit value of a two-byte register (rules R12, R14, R15). Bit-field helpers stand in the files
that use them. -/

namespace Sys2Proof

/-- One byte of the link, bits 7 (most significant) down to 0 (rule R7). -/
abbrev Byte := BitVec 8

/-- The 16-bit value of a two-byte register (rules R12, R14, R15). -/
abbrev Half := BitVec 16

/-- A device address of the link: 7 bits, 128 addresses (rule R31 (a)). -/
abbrev Peer := BitVec 7

end Sys2Proof
end

