-- ==== Sys2Proof/Config.lean ====
section
/-! DEFINITION. The implementation parameters of rule R6, the inputs of rule R34, and the free values: what the spec
leaves open stands here as opaque constants, so that no proof can see which value the hardware takes. -/

namespace Sys2Proof

/-- What happens in one step of a run: one of the input events of rule R34, or a turn of the worker. Any sequence of
turns is a run of the block (rule R80: the agents step in any interleaving). `txReady` is a turn of the worker at a
moment when the transport can take a response, `underfillExpired` one at the moment the short timeout has run out;
on a plain `worker` turn neither holds. -/
inductive Turn where
  | rxByte (b : Byte)
  | stopReq
  | underfillExpired
  | txReady
  | reset
  | worker
deriving DecidableEq, Repr, Inhabited

/-- The configuration record of rule R6, in the order of its table. `RD_ADDR_BYTE`, `WR_ADDR_BYTE` and `NREG` are
derived there from the other rows, and are the functions below this structure. The link parameters are not modelled
(rule R5 (f)). -/
structure Config where
  /-- `PEER_ADDR`: the one device address the block answers to. -/
  peerAddr : Peer
  /-- `STATUS_TOKEN`. -/
  statusToken : Half
  /-- `REG_WIDTH[0..3]`, in bytes. -/
  regWidth : List Nat
  /-- `QCAP`: the capacity of the Ingest Queue in bytes. -/
  qcap : Nat
  /-- `RESP_MSB_FIRST`. -/
  respMsbFirst : Bool
  /-- `BTN_PLACEHOLDER`. -/
  btnPlaceholder : Byte
  /-- `ADC_CHANNEL`: the source gives no form of a channel id, here a number. -/
  adcChannel : Nat
  /-- `T_UNDERFILL`: a duration in no stated unit, which no rule reads (`93_implementation_defined.md` U11). -/
  tUnderfill : Nat
deriving DecidableEq, Repr

/-- `RD_ADDR_BYTE` of rule R6: `0x80 | PEER_ADDR`. -/
def Config.rdAddrByte (c : Config) : Byte := 0x80#8 ||| c.peerAddr.zeroExtend 8

/-- `WR_ADDR_BYTE` of rule R6: `PEER_ADDR`. -/
def Config.wrAddrByte (c : Config) : Byte := c.peerAddr.zeroExtend 8

/-- `NREG` of rule R6: how many register addresses are populated. -/
def Config.nreg (c : Config) : Nat := c.regWidth.length

/-- How far the queue's capacity exceeds 258, the least that rule R6 allows: open, so free. -/
opaque Config.extraCapacity : Nat

/-- The value of `BTN_PLACEHOLDER`, which rules R6 and R13 leave open: free, one constant for every read. -/
opaque Config.freeButtonMask : Byte

/-- The value of `ADC_CHANNEL`, which rules R6 and R12 leave open: free. -/
opaque Config.freeChannel : Nat

/-- The value of `T_UNDERFILL`, which rules R6 and R173 leave open: free, and read by nothing. -/
opaque Config.freeUnderfillTime : Nat

/-- The draw that the `n`-th call of `adc_read` on a channel answers (rule R176: any value, under no law). -/
opaque Config.freeAdc : Nat → Nat → Half

/-- The draw that the `n`-th call of `rate_estimate` answers (rule R177: any value, under no law). -/
opaque Config.freeRate : Nat → Half

/-- The turn that is taken as the `n`-th of a run where the state fixes none: the choice of the environment and the
scheduler (rule R34), under no law. -/
opaque Config.freeTurn : Nat → Turn

/-- How the host's `write_register` reports that no status byte came, which the source does not say (rule R134):
true for `Timeout`, false for `success = false`. -/
opaque Config.freeSilentWrite : Bool

/-- The configuration of this hardware: the fixed values of rule R6, with every open row a free value. The capacity
is written as the free excess plus 258, so that `258 ≤ qcap` is all that can be proved of it. -/
def Config.hw : Config where
  peerAddr := 0b1001000#7
  statusToken := 0x4F4B#16
  regWidth := [2, 1, 2, 2]
  qcap := Config.extraCapacity + 258
  respMsbFirst := true
  btnPlaceholder := Config.freeButtonMask
  adcChannel := Config.freeChannel
  tUnderfill := Config.freeUnderfillTime

/-- The reference configuration of rule R6, with which the vectors of `95_test_vectors.md` are written. It is used by
the tests alone: the machine runs with `Config.hw`. Rule R6 gives no reference value for `ADC_CHANNEL` and
`T_UNDERFILL`: their 0 here is the model's choice (DESIGN CHOICE, log entry 5). -/
def Config.reference : Config :=
  { Config.hw with qcap := 258, btnPlaceholder := 0x00#8, adcChannel := 0, tUnderfill := 0 }

end Sys2Proof
end

