-- ==== Sys2Proof/Syntax.lean ====
section
/-! DEFINITION. The operations of the block as abstract syntax: the seven that a two-byte request header selects
(rule R67). The opcode table spreads them over 18 rows of masks, only because `IGN` and `RD_UNMAPPED` are complements
of single values (rule R68); a constructor here carries the operand bits that its rows leave open. The length byte
and the payload of a `WR` frame follow the header in the stream and are no part of the header word (rule R68); the
whole frame, with its payload, is `Frame` in `Sys2Proof/Decode.lean`. -/

namespace Sys2Proof

/-- One operation, as the header of its frame selects it (rule R67). -/
inductive Instr where
  /-- `RD_ADC`: READ of register 0 (rule R101). -/
  | rdAdc
  /-- `RD_BTN`: READ of register 1 (rule R102). -/
  | rdBtn
  /-- `RD_STATUS`: READ of register 2 (rule R103). -/
  | rdStatus
  /-- `RD_RATE`: READ of register 3 (rule R104). -/
  | rdRate
  /-- `RD_UNMAPPED`: READ of the register address `reg`, 4 to 255 (rule R105; six rows of the table). -/
  | rdUnmapped (reg : Byte)
  /-- `WR`: WRITE to this device, register address `reg` (rule R110). -/
  | wr (reg : Byte)
  /-- `IGN`: a header for the device address `peer`, any but this block's, with its read bit and its register byte
  (rule R120; seven rows of the table). -/
  | ign (read : Bool) (peer : Peer) (reg : Byte)
deriving DecidableEq, Repr

/-- The operation's name in `spec/opcode_table.json`. -/
def Instr.mnemonic : Instr → String
  | .rdAdc => "RD_ADC"
  | .rdBtn => "RD_BTN"
  | .rdStatus => "RD_STATUS"
  | .rdRate => "RD_RATE"
  | .rdUnmapped _ => "RD_UNMAPPED"
  | .wr _ => "WR"
  | .ign _ _ _ => "IGN"

/-- Whether the operation is one of the four reads that the Register Table serves (rule R67). -/
def Instr.isServedRead : Instr → Bool
  | .rdAdc => true
  | .rdBtn => true
  | .rdStatus => true
  | .rdRate => true
  | .rdUnmapped _ => false
  | .wr _ => false
  | .ign _ _ _ => false

end Sys2Proof
end

