-- ==== Sys2Proof/WellFormed.lean ====
section
/-! DEFINITION. Which terms of the syntax stand for a header: the conditions of the opcode map (rule R67) on the
operands. -/

namespace Sys2Proof

/-- The operands of an operation are ones its rows of the opcode map admit (rule R67). -/
def Instr.wellFormed : Instr → Bool
  | .rdAdc => true
  | .rdBtn => true
  | .rdStatus => true
  | .rdRate => true
  | .rdUnmapped reg => decide (4 ≤ reg.toNat)
  | .wr _ => true
  | .ign _ peer _ => peer != Config.hw.peerAddr

end Sys2Proof
end

