-- ==== Sys2Proof/Decode.lean ====
section
/-! DEFINITION. The frame encodings: the header decode (rule R66), the opcode map (rule R67), the decoder of a byte
sequence, the encoder, whole frames with their payload (rules R60, R63, R64), the host's codec (rules R130 to R132),
and the mask rows of the opcode table (rule R68). -/

namespace Sys2Proof

/-- What `decode_header` extracts from the two header bytes (rule R66). -/
structure Header where
  /-- `rw`: the read bit. -/
  read : Bool
  /-- `peer`: the device address. -/
  peer : Peer
  /-- `reg`: the register address. -/
  reg : Byte
deriving DecidableEq, Repr

/-- `decode_header` (rule R66), the same function on both sides of the link (rule R132). -/
def decodeHeader (byte0 byte1 : Byte) : Header where
  read := byte0[7]
  peer := byte0.extractLsb' 0 7
  reg := byte1

/-- The opcode map of rule R67: the address test first, then the read bit and the register address. -/
def Header.instr (h : Header) : Instr :=
  if h.peer ≠ Config.hw.peerAddr then .ign h.read h.peer h.reg
  else if h.read then
    if h.reg = 0#8 then .rdAdc
    else if h.reg = 1#8 then .rdBtn
    else if h.reg = 2#8 then .rdStatus
    else if h.reg = 3#8 then .rdRate
    else .rdUnmapped h.reg
  else .wr h.reg

/-- The operation that the two header bytes select: total, every pair of bytes is some operation (rules R66, R67). -/
def decodeInstr (byte0 byte1 : Byte) : Instr := (decodeHeader byte0 byte1).instr

/-- Why a byte sequence is not yet a header or a frame. No encoding is refused (rule R69): the only thing that can be
wrong with a sequence is that it ends too soon. -/
inductive DecodeError where
  /-- Fewer than the two bytes of a header. -/
  | truncatedHeader
  /-- A `WR` header with no length byte after it. -/
  | truncatedLength
  /-- A `WR` frame whose announced payload does not fully stand in the sequence (rule R113). -/
  | truncatedPayload
deriving DecidableEq, Repr

/-- Reads one header from a byte sequence in link order and returns it with the bytes after it. -/
def decode : List Byte → Except DecodeError (Instr × List Byte)
  | byte0 :: byte1 :: rest => .ok (decodeInstr byte0 byte1, rest)
  | _ => .error .truncatedHeader

/-- The address byte of rule R61: the read flag in bit 7, the device address in bits 6 to 0. -/
def addressByte (read : Bool) (peer : Peer) : Byte :=
  BitVec.ofBool read ++ peer

/-- The header fields of an operation, the inverse of the opcode map (rule R67). -/
def Instr.header : Instr → Header
  | .rdAdc => ⟨true, Config.hw.peerAddr, 0#8⟩
  | .rdBtn => ⟨true, Config.hw.peerAddr, 1#8⟩
  | .rdStatus => ⟨true, Config.hw.peerAddr, 2#8⟩
  | .rdRate => ⟨true, Config.hw.peerAddr, 3#8⟩
  | .rdUnmapped reg => ⟨true, Config.hw.peerAddr, reg⟩
  | .wr reg => ⟨false, Config.hw.peerAddr, reg⟩
  | .ign read peer reg => ⟨read, peer, reg⟩

/-- The two bytes of an operation's header, first byte first (rules R61 to R64). -/
def encode (i : Instr) : List Byte :=
  [addressByte i.header.read i.header.peer, i.header.reg]

/-- A whole request frame (rule R60): a header and, for `WR`, the payload behind its length byte. -/
structure Frame where
  head : Instr
  payload : List Byte
deriving DecidableEq, Repr

/-- Whether a header opens a frame of format `WR` (rule R60: the header alone decides the format). -/
def Instr.isWrite : Instr → Bool
  | .rdAdc => false
  | .rdBtn => false
  | .rdStatus => false
  | .rdRate => false
  | .rdUnmapped _ => false
  | .wr _ => true
  | .ign _ _ _ => false

/-- A frame the protocol has: a well-formed header; a payload of at most 255 bytes, and one for `WR` alone (rules R60,
R64; the block reads no length after an `IGN` header, rule R73). -/
def Frame.wellFormed (f : Frame) : Bool :=
  f.head.wellFormed && decide (f.payload.length ≤ 255) && (f.head.isWrite || f.payload.isEmpty)

/-- The bytes of a whole frame (rules R63, R64). -/
def encodeFrame (f : Frame) : List Byte :=
  encode f.head ++ (if f.head.isWrite then BitVec.ofNat 8 f.payload.length :: f.payload else [])

/-- Takes a `WR` frame's length byte and payload off a byte sequence (rule R73). -/
def decodePayload (head : Instr) : List Byte → Except DecodeError (Frame × List Byte)
  | [] => .error .truncatedLength
  | len :: rest =>
    if rest.length < len.toNat then .error .truncatedPayload
    else .ok (⟨head, rest.take len.toNat⟩, rest.drop len.toNat)

/-- Reads one whole frame from a byte sequence and returns it with the bytes after it (rule R73: 2 bytes, or
`3 + len` for a `WR`). -/
def decodeFrame (bytes : List Byte) : Except DecodeError (Frame × List Byte) :=
  match decode bytes with
  | .error e => .error e
  | .ok (head, rest) => if head.isWrite then decodePayload head rest else .ok (⟨head, []⟩, rest)

/-- The errors of the host's side of the link (rule R137). `ProtocolMismatch` is not among them: it arises in the block
and is not surfaced; `StorageWriteFailure` belongs to the sample log, which is out of scope. -/
inductive HostError where
  /-- `PayloadTooLarge`: raised by `encode_write` (rule R131). -/
  | payloadTooLarge
  /-- `Timeout`: the expected bytes did not arrive (rule R133). -/
  | timeout
  /-- `LinkError`: the host's transport failed (rule R133). -/
  | linkError
deriving DecidableEq, Repr

/-- The frame `RDX a, r` of rule R75: a READ of register `r` for the device address `a`. -/
def encodeReadTo (a : Peer) (r : Byte) : List Byte := [addressByte true a, r]

/-- The bytes of the frame `WRX a, r, [p...]` of rule R75: a WRITE for the device address `a`, whichever it is, with its
length byte and its payload. -/
def writeBytesTo (a : Peer) (r : Byte) (payload : List Byte) : List Byte :=
  addressByte false a :: r :: BitVec.ofNat 8 payload.length :: payload

/-- The encoder of the frame `WRX a, r, [p...]` of rule R75, with the limit of rule R131. -/
def encodeWriteTo (a : Peer) (r : Byte) (payload : List Byte) : Except HostError (List Byte) :=
  if 255 < payload.length then .error .payloadTooLarge else .ok (writeBytesTo a r payload)

/-- `encode_read` (rule R130), the frame `RD r` of rule R75. -/
def encodeRead (r : Byte) : List Byte := encodeReadTo Config.hw.peerAddr r

/-- `encode_write` (rule R131), the frame `WR r, [p...]` of rule R75. -/
def encodeWrite (r : Byte) (payload : List Byte) : Except HostError (List Byte) :=
  encodeWriteTo Config.hw.peerAddr r payload

/-- A frame as a host sends it, to any device address (rules R64, R75). It is not `Frame`, which is a frame as this block
takes it: a WRITE for another device has a length byte and a payload here, and ends at its header there (rule R73). -/
inductive Request where
  /-- `RDX a, r`: a READ of register `r` for the device address `a`. -/
  | rdx (a : Peer) (r : Byte)
  /-- `WRX a, r, [p...]`: a WRITE for the device address `a`. -/
  | wrx (a : Peer) (r : Byte) (payload : List Byte)
deriving DecidableEq, Repr

/-- The device address a request is for. -/
def Request.peer : Request → Peer
  | .rdx a _ => a
  | .wrx a _ _ => a

/-- The bytes of a request sent whole (rule R75). -/
def Request.bytes : Request → List Byte
  | .rdx a r => encodeReadTo a r
  | .wrx a r payload => writeBytesTo a r payload

/-- A request that the encoders give: a payload has at most 255 bytes (rule R131). -/
def Request.wellFormed : Request → Bool
  | .rdx _ _ => true
  | .wrx _ _ payload => decide (payload.length ≤ 255)

/-- One row of the opcode table: it selects the header word `H` when `H & mask = match` (rule R68). -/
structure TableRow where
  mnemonic : String
  pattern : Half
  mask : Half
deriving DecidableEq, Repr

/-- Whether the row selects a header word (rule R68). -/
def TableRow.selects (row : TableRow) (h : Half) : Bool := h &&& row.mask == row.pattern

/-- The rows of the table for headers of this block's own device address. -/
def ownRows : List TableRow :=
  [⟨"RD_ADC", 0xC800#16, 0xFFFF#16⟩, ⟨"RD_BTN", 0xC801#16, 0xFFFF#16⟩, ⟨"RD_STATUS", 0xC802#16, 0xFFFF#16⟩,
   ⟨"RD_RATE", 0xC803#16, 0xFFFF#16⟩, ⟨"RD_UNMAPPED", 0xC804#16, 0xFFFC#16⟩, ⟨"RD_UNMAPPED", 0xC808#16, 0xFFF8#16⟩,
   ⟨"RD_UNMAPPED", 0xC810#16, 0xFFF0#16⟩, ⟨"RD_UNMAPPED", 0xC820#16, 0xFFE0#16⟩, ⟨"RD_UNMAPPED", 0xC840#16, 0xFFC0#16⟩,
   ⟨"RD_UNMAPPED", 0xC880#16, 0xFF80#16⟩, ⟨"WR", 0x4800#16, 0xFF00#16⟩]

/-- The rows of the table for headers of other device addresses. -/
def foreignRows : List TableRow :=
  [⟨"IGN", 0x0000#16, 0x4000#16⟩, ⟨"IGN", 0x6000#16, 0x6000#16⟩, ⟨"IGN", 0x5000#16, 0x7000#16⟩, ⟨"IGN", 0x4000#16, 0x7800#16⟩,
   ⟨"IGN", 0x4C00#16, 0x7C00#16⟩, ⟨"IGN", 0x4A00#16, 0x7E00#16⟩, ⟨"IGN", 0x4900#16, 0x7F00#16⟩]

/-- The 18 rows of `spec/opcode_table.json`, in its order. -/
def tableRows : List TableRow := ownRows ++ foreignRows

/-- `byte0` of a header word: `H[15:8]` (rule R68). -/
def headerByte0 (h : Half) : Byte := h.extractLsb' 8 8

/-- `byte1` of a header word: `H[7:0]` (rule R68). -/
def headerByte1 (h : Half) : Byte := h.extractLsb' 0 8

/-- The header word `H = (byte0 << 8) | byte1` (rule R68). -/
def headerWord (byte0 byte1 : Byte) : Half := byte0 ++ byte1

/-- The header word of an operation (rule R68). -/
def Instr.word (i : Instr) : Half :=
  headerWord (addressByte i.header.read i.header.peer) i.header.reg

/-- The header word that a table word of `nbits` bits holds: its low 16 bits, every bit above `nbits` being 0. Bits a
caller gives above 15 stand for bytes after the header, which are no part of it (rule R68). -/
def tableHeader (nbits w : Nat) : Half := BitVec.ofNat 16 (w % 2 ^ nbits)

/-- The operation the decoder reads from a word of the opcode table: the header word's two bytes, `byte0` first, are
laid out in link order and given to `decode`. -/
def decodeTableWord (nbits w : Nat) : Option Instr :=
  match decode [headerByte0 (tableHeader nbits w), headerByte1 (tableHeader nbits w)] with
  | .ok (i, _) => some i
  | .error _ => none

end Sys2Proof
end

