-- ==== Sys2Proof/Machine/State.lean ====
section
/-! DEFINITION. The state of the block: the ten fields of the record of rule R10, the transmit history of rule R26, and
beside them, as plain data, what rule R34 calls inputs: the turns and the oracle answers that the environment has
already fixed, and the counters that number the free ones. -/

namespace Sys2Proof.Machine

/-- `phase`, the state of the pipeline's state machine (rule R21). -/
inductive Phase where
  /-- No byte of a frame has been taken. -/
  | idle
  /-- The address byte is latched, the register byte is awaited. -/
  | headerPartial
  /-- Both header bytes are latched; the frame is decoded, or a `WR` is drained. -/
  | dispatching
  /-- A response is latched and is being written to the link. -/
  | responding
  /-- The worker has exited. -/
  | stopped
deriving DecidableEq, Repr

/-- `wk`: the worker is at its signal wait, or past it (rule R22). -/
inductive Wk where
  | blocked
  | running
deriving DecidableEq, Repr

/-- `wsub`, the sub-state of `Dispatching` (rule R24). -/
inductive Wsub where
  /-- The header is not yet decoded, or the phase is not `Dispatching`. -/
  | none
  /-- The length byte of a `WR` frame is awaited. -/
  | awaitLen
  /-- Payload bytes of a `WR` frame are still to be discarded. -/
  | drain
deriving DecidableEq, Repr

/-- The two oracles (rules R176, R177): the answers the environment has already fixed, next first, and how many calls
have been made; a call with no fixed answer takes the free draw of that number. The model's own form of an input. -/
structure Oracles where
  adcAnswers : List Half
  adcCalls : Nat
  rateAnswers : List Half
  rateCalls : Nat
deriving DecidableEq, Repr

/-- The whole state. The first ten fields are the record of rule R10, under its names. -/
structure State where
  /-- `Q`, the Ingest Queue, head first (rule R18). -/
  q : List Byte
  /-- `stop`, the signal flag `Stop` (rule R20). -/
  stop : Bool
  /-- `data_ready`, the signal flag `DataReady` (rule R20). -/
  dataReady : Bool
  /-- `phase` (rule R21). -/
  phase : Phase
  /-- `wk` (rule R22). -/
  wk : Wk
  /-- `hdr0`, the latched address byte (rule R23). -/
  hdr0 : Byte
  /-- `hdr1`, the latched register byte (rule R23). -/
  hdr1 : Byte
  /-- `wsub` (rule R24). -/
  wsub : Wsub
  /-- `drain_cnt`, payload bytes still to discard, 0 to 255 (rule R24). -/
  drainCnt : Byte
  /-- `resp`, the latched response in link order (rule R25). -/
  resp : List Byte
  /-- `TX`, every byte written to the link since reset, in order (rule R26): a history, which no step reads. -/
  tx : List Byte
  /-- Input: the turns the environment has already fixed, next first (rule R34). The model's own field. -/
  turns : List Turn
  /-- How many turns have been taken, the number of the next free one. The model's own field. -/
  turnCount : Nat
  /-- Input: the two oracles (rule R34). The model's own field. -/
  oracles : Oracles
deriving DecidableEq, Repr

/-- Why the machine can stop with a fault: for no reason. The block has no fault (rules R160, R215), every header and
every byte has a defined step, so this type has no constructor and no step can answer with one (safe). -/
inductive Fault
deriving DecidableEq, Repr

/-- Why the machine can refuse an instruction. -/
inductive Refusal where
  /-- The instruction named has no meaning in the model. Raised by an arm of `exec` alone, and by none of them now
  (rule R215: nothing is refused). Safe: a run ends there. -/
  | notModelled (mnemonic : String)
deriving DecidableEq, Repr

/-- The state right after reset (rule R30). Rule R30 leaves `hdr0`, `hdr1` and `drain_cnt` unspecified: zero here
(DESIGN CHOICE, log entry 1; unsafe, but no step reads one of them before it is written). No input is fixed: every
turn and every answer is a free one (log entry 2). -/
def State.reset : State where
  q := []
  stop := false
  dataReady := false
  phase := .idle
  wk := .blocked
  hdr0 := 0#8
  hdr1 := 0#8
  wsub := .none
  drainCnt := 0#8
  resp := []
  tx := []
  turns := []
  turnCount := 0
  oracles := ⟨[], 0, [], 0⟩

end Sys2Proof.Machine
end

