-- ==== Sys2Proof/Machine/Flags.lean ====
section
/-! DEFINITION. The two signal flags, `Stop` and `DataReady` (rule R20): sticky Booleans, each with its one way of
being raised and of being consumed. The block has no condition codes. -/

namespace Sys2Proof.Machine

/-- `data_ready <- true` (rules R152, R154): raising a raised flag changes nothing. -/
def State.raiseDataReady (s : State) : State := { s with dataReady := true }

/-- `data_ready <- false`, the wake's consumption of the flag (rule R82). -/
def State.clearDataReady (s : State) : State := { s with dataReady := false }

/-- `stop <- true` (rule R155). -/
def State.raiseStop (s : State) : State := { s with stop := true }

/-- Both flags cleared, as the worker's exit does (rule R83). -/
def State.clearFlags (s : State) : State := { s with stop := false, dataReady := false }

end Sys2Proof.Machine
end

