-- ==== Sys2Proof/Machine/Operands.lean ====
section
/-! DEFINITION. The operand forms: the Register Table (rule R11), the byte order of a response (rule R40), the two
oracles (rules R176, R177) and the register dispatcher `RegRead` (rule R100). -/

namespace Sys2Proof.Machine

/-- `hi8(v) = v[15:8]` (rule R7). -/
def hi8 (v : Half) : Byte := v.extractLsb' 8 8

/-- `lo8(v) = v[7:0]` (rule R7). -/
def lo8 (v : Half) : Byte := v.extractLsb' 0 8

/-- The two bytes of a 16-bit value in link order: most significant first where `RESP_MSB_FIRST` holds, reversed where
it does not (rule R40). -/
def linkOrder (msbFirst : Bool) (v : Half) : List Byte :=
  if msbFirst then [hi8 v, lo8 v] else [lo8 v, hi8 v]

/-- What a register of the Register Table means (rule R11). -/
inductive Semantics where
  | adcReading
  | buttonMask
  | statusToken
  | sampleRateEstimate
deriving DecidableEq, Repr

/-- A register: its address, its width in bytes, its meaning (rule R11). -/
structure Register where
  address : Byte
  width : Nat
  semantics : Semantics
deriving DecidableEq, Repr

/-- The Register Table: fixed, four entries (rule R11; `90_conflicts.md` C4). -/
def registerTable : List Register :=
  [⟨0#8, 2, .adcReading⟩, ⟨1#8, 1, .buttonMask⟩, ⟨2#8, 2, .statusToken⟩, ⟨3#8, 2, .sampleRateEstimate⟩]

/-- The look-up of a register address in the Register Table (rule R85). -/
def lookupRegister (reg : Byte) : Option Register :=
  registerTable.find? (fun r => r.address == reg)

/-- One call of `adc_read(ch)` (rule R176): the answer, and the oracles after the call. -/
def adcRead (ch : Nat) (o : Oracles) : Half × Oracles :=
  match o.adcAnswers with
  | v :: rest => (v, { o with adcAnswers := rest, adcCalls := o.adcCalls + 1 })
  | [] => (Config.freeAdc ch o.adcCalls, { o with adcCalls := o.adcCalls + 1 })

/-- One call of `rate_estimate()` (rule R177): the answer, and the oracles after the call. -/
def rateEstimate (o : Oracles) : Half × Oracles :=
  match o.rateAnswers with
  | v :: rest => (v, { o with rateAnswers := rest, rateCalls := o.rateCalls + 1 })
  | [] => (Config.freeRate o.rateCalls, { o with rateCalls := o.rateCalls + 1 })

/-- `RegRead`, the register dispatcher (rule R100): the handler is called once and its value given in link order. -/
def regRead (c : Config) (k : Semantics) (o : Oracles) : List Byte × Oracles :=
  match k with
  | .adcReading => (linkOrder c.respMsbFirst (adcRead c.adcChannel o).1, (adcRead c.adcChannel o).2)
  | .buttonMask => ([c.btnPlaceholder], o)
  | .statusToken => (linkOrder c.respMsbFirst c.statusToken, o)
  | .sampleRateEstimate => (linkOrder c.respMsbFirst (rateEstimate o).1, (rateEstimate o).2)

end Sys2Proof.Machine
end

