-- ==== Sys2Proof/Machine/Ops.lean ====
section
/-! DEFINITION. The named operations over the state: the Ingest Queue (rule R8), giving a frame up (`abandon`, rule
R160: what stands here for taking an exception, with no return from one, rule R172), latching and writing a response
(rules R85, R86), opening the drain of a write (rule R85), and reset (rule R190). -/

namespace Sys2Proof.Machine

/-- `QPush(b)`: append at the tail if there is room, else drop the incoming byte (rules R8, R152, R153). -/
def queuePush (qcap : Nat) (b : Byte) (q : List Byte) : List Byte :=
  if q.length < qcap then q ++ [b] else q

/-- The causes for which a frame is given up (rules R161 to R163). They are labels of the spec's and are recorded
nowhere (rule R165). -/
inductive Cause where
  | addressMismatch
  | unknownRegister
  | underfillAbandon
deriving DecidableEq, Repr

/-- `abandon <Cause>` (rule R160): back to `Idle`, with nothing sent and nothing recorded, the cause included. -/
def State.abandon (_cause : Cause) (s : State) : State :=
  { s with phase := .idle, wsub := .none }

/-- Latch a response and go to `Responding` (rule R85). -/
def State.latchResponse (bytes : List Byte) (s : State) : State :=
  { s with resp := bytes, phase := .responding }

/-- Call the handler of a register, once, and latch its value (rules R46, R85, R100). -/
def State.serveRead (c : Config) (k : Semantics) (s : State) : State :=
  State.latchResponse (regRead c k s.oracles).1 { s with oracles := (regRead c k s.oracles).2 }

/-- A header was a WRITE to this device: its length byte is awaited (rule R85). -/
def State.awaitLength (s : State) : State := { s with wsub := .awaitLen }

/-- `TxWrite`: append bytes to the transmit stream, in order (rule R8). -/
def State.txWrite (bytes : List Byte) (s : State) : State := { s with tx := s.tx ++ bytes }

/-- `RESET` (rule R190): the block takes the state of rule R30, whose transmit history starts empty. The environment's
inputs are no part of the block and stay. -/
def State.resetBlock (s : State) : State :=
  { State.reset with turns := s.turns, turnCount := s.turnCount, oracles := s.oracles }

/-- The turn that is next: the first the environment has fixed, or else the free one of that number (rule R34). -/
def State.nextTurn (s : State) : Turn :=
  match s.turns with
  | t :: _ => t
  | [] => Config.freeTurn s.turnCount

/-- The state with its next turn taken off the inputs. -/
def State.advanceTurn (s : State) : State :=
  { s with turns := s.turns.tail, turnCount := s.turnCount + 1 }

/-- The state in which the two bytes stand in the header latches of a running worker, undecoded, with the worker's
turn next: `W-DECODE` is the step that takes an operation from its bytes (rule R85). -/
def State.placeHeader (byte0 byte1 : Byte) (s : State) : State :=
  { s with phase := .dispatching, wk := .running, wsub := .none, hdr0 := byte0, hdr1 := byte1,
           turns := Turn.worker :: s.turns }

end Sys2Proof.Machine
end

