-- ==== Sys2Proof/Machine/IgnoredFrames.lean ====
section
/-! DEFINITION. The meaning of a header for another device (`43_ignored_frames.md`) at its dispatch, the `W-DECODE`
step of rule R85. -/

namespace Sys2Proof.Machine

/-- `IGN` (rule R120): both bytes of the header are discarded, whatever the read bit, the address and the register
byte; a WRITE for another device is not drained (rule R123). -/
def execIgn (_read : Bool) (_peer : Peer) (_reg : Byte) (s : State) : Host.Outcome State Fault Refusal :=
  .next (s.abandon .addressMismatch)

end Sys2Proof.Machine
end

