-- ==== Sys2Proof/Machine/ReadFrames.lean ====
section
/-! DEFINITION. The meanings of the READ frames (`41_read_frames.md`) at their dispatch, the `W-DECODE` step of rule
R85. Taking the two header bytes before it (`W-POP`) and writing the response after it (`W-TX`) are steps of their
own, with other agents' steps in between, and stand in `Sys2Proof/Machine/Sequencer.lean`. -/

namespace Sys2Proof.Machine

/-- `RD_ADC` (rule R101): one call of the converter, its 16 bits latched most significant byte first. -/
def execRdAdc (s : State) : Host.Outcome State Fault Refusal :=
  .next (s.serveRead Config.hw .adcReading)

/-- `RD_BTN` (rule R102): the one-byte constant is latched. -/
def execRdBtn (s : State) : Host.Outcome State Fault Refusal :=
  .next (s.serveRead Config.hw .buttonMask)

/-- `RD_STATUS` (rule R103): the status token is latched, most significant byte first. -/
def execRdStatus (s : State) : Host.Outcome State Fault Refusal :=
  .next (s.serveRead Config.hw .statusToken)

/-- `RD_RATE` (rule R104): one call of the estimator, its 16 bits latched most significant byte first. -/
def execRdRate (s : State) : Host.Outcome State Fault Refusal :=
  .next (s.serveRead Config.hw .sampleRateEstimate)

/-- `RD_UNMAPPED` (rule R105): the frame is given up, whichever address it names, and no handler is called. -/
def execRdUnmapped (_reg : Byte) (s : State) : Host.Outcome State Fault Refusal :=
  .next (s.abandon .unknownRegister)

end Sys2Proof.Machine
end

