-- ==== Sys2Proof/Machine/WriteFrames.lean ====
section
/-! DEFINITION. The meaning of the WRITE frame (`42_write_frames.md`) at its dispatch, the `W-DECODE` step of rule R85.
The drain that it opens, of the length byte and of the payload, is done byte by byte by `W-POP` (rule R84) in
`Sys2Proof/Machine/Sequencer.lean`. -/

namespace Sys2Proof.Machine

/-- `WR` (rules R85, R110, R112): the length byte is awaited, whatever the register address. -/
def execWr (_reg : Byte) (s : State) : Host.Outcome State Fault Refusal :=
  .next s.awaitLength

end Sys2Proof.Machine
end

