-- ==== Sys2Proof/Machine/Dispatch.lean ====
section
/-! DEFINITION. The dispatch of a decoded header to its operation (rules R67, R85): one arm per operation. -/

namespace Sys2Proof.Machine

def exec (i : Instr) (s : State) : Host.Outcome State Fault Refusal :=
  match i with
  | .rdAdc => Sys2Proof.Machine.execRdAdc s
  | .rdBtn => Sys2Proof.Machine.execRdBtn s
  | .rdStatus => Sys2Proof.Machine.execRdStatus s
  | .rdRate => Sys2Proof.Machine.execRdRate s
  | .rdUnmapped reg => Sys2Proof.Machine.execRdUnmapped reg s
  | .wr reg => Sys2Proof.Machine.execWr reg s
  | .ign read peer reg => Sys2Proof.Machine.execIgn read peer reg s

end Sys2Proof.Machine
end

