-- ==== Sys2Proof/Machine/Interrupt.lean ====
section
/-! DEFINITION. The steps that are not the worker's: the receive interrupt handler's one step `I-PUSH` (rule R152) and
the raising of `Stop` (rule R155). -/

namespace Sys2Proof.Machine

/-- `I-PUSH(b)` (rule R152): push, then raise, the flag raised for a dropped byte too; nothing once stopped. -/
def iPush (qcap : Nat) (b : Byte) (s : State) : State :=
  if s.phase = .stopped then s
  else State.raiseDataReady { s with q := queuePush qcap b s.q }

/-- `S-RAISE` (rule R155): raise `Stop`; nothing once stopped. -/
def sRaise (s : State) : State :=
  if s.phase = .stopped then s else s.raiseStop

end Sys2Proof.Machine
end

