-- ==== Sys2Proof/Machine/Sequencer.lean ====
section
/-! DEFINITION. The worker's steps, when each is enabled and what it does (rules R81 to R89), and one turn of the whole
machine: a step of the interrupt handler, of the environment or of the worker (rule R80). -/

namespace Sys2Proof.Machine

/-- The worker's steps (rule R81). -/
inductive WorkerStep where
  | wStop
  | wWake
  | wPop
  | wDecode
  | wTx
  | wSleep
  | wExpire
deriving DecidableEq, Repr

/-- `busy`: a frame is in progress and more bytes are awaited (rule R81). -/
def State.busy (s : State) : Bool :=
  s.phase == .headerPartial || (s.phase == .dispatching && (s.wsub == .awaitLen || s.wsub == .drain))

/-- The condition on the state under which a worker step is enabled (rule R81). The events that `W-TX` and `W-EXPIRE`
need beside it are in `grants`. -/
def enabled (w : WorkerStep) (s : State) : Bool :=
  match w with
  | .wStop => s.wk == .blocked && s.phase == .idle && s.stop
  | .wWake => s.wk == .blocked && s.phase == .idle && !s.stop && s.dataReady
  | .wPop => s.wk == .running && !s.q.isEmpty && (s.phase == .idle || s.busy)
  | .wDecode => s.phase == .dispatching && s.wsub == .none
  | .wTx => s.phase == .responding
  | .wSleep => s.wk == .running && s.q.isEmpty && s.phase == .idle
  | .wExpire => s.wk == .running && s.q.isEmpty && s.busy

/-- The worker step whose condition on the state holds, if one does; at most one does (rule R89). -/
def nextWorkerStep (s : State) : Option WorkerStep :=
  if enabled .wStop s then some .wStop
  else if enabled .wWake s then some .wWake
  else if enabled .wPop s then some .wPop
  else if enabled .wDecode s then some .wDecode
  else if enabled .wTx s then some .wTx
  else if enabled .wSleep s then some .wSleep
  else if enabled .wExpire s then some .wExpire
  else none

/-- Whether a turn lets a worker step be taken: `W-TX` needs `TxReady`, `W-EXPIRE` needs `UnderfillExpired`, the others
no event (rule R81). -/
def grants (t : Turn) (w : WorkerStep) : Bool :=
  match w with
  | .wStop => t == .worker
  | .wWake => t == .worker
  | .wPop => t == .worker
  | .wDecode => t == .worker
  | .wTx => t == .txReady
  | .wSleep => t == .worker
  | .wExpire => t == .underfillExpired

/-- `W-WAKE` (rule R82): the flag is consumed before any look at the queue. -/
def wWake (s : State) : State := { s.clearDataReady with wk := .running }

/-- `W-STOP` (rule R83): the queue is released and the worker exits. -/
def wStop (s : State) : State :=
  { s.clearFlags with q := [], phase := .stopped, wk := .blocked, wsub := .none, resp := [] }

/-- A popped byte taken as the next byte of the frame (rule R84). The pairs of `phase` and `wsub` that rule R84 does
not list are none in which `W-POP` is enabled, but for a `wsub` left standing outside `Dispatching`, which no run
reaches (rule R33 (iv)): there the phase alone decides. -/
def takeByte (b : Byte) (s : State) : State :=
  match s.phase, s.wsub with
  | .idle, _ => { s with hdr0 := b, phase := .headerPartial }
  | .headerPartial, _ => { s with hdr1 := b, phase := .dispatching, wsub := .none }
  | .dispatching, .awaitLen =>
    if b = 0#8 then { s with phase := .idle, wsub := .none }
    else { s with drainCnt := b, wsub := .drain }
  | .dispatching, .drain =>
    if s.drainCnt - 1#8 = 0#8 then { s with drainCnt := s.drainCnt - 1#8, phase := .idle, wsub := .none }
    else { s with drainCnt := s.drainCnt - 1#8 }
  | .dispatching, .none => s
  | .responding, _ => s
  | .stopped, _ => s

/-- `W-POP` (rule R84): `QPop()`, and the head byte taken into the frame. It is never enabled at an empty queue. -/
def wPop (s : State) : State :=
  match s.q with
  | b :: rest => takeByte b { s with q := rest }
  | [] => s

/-- `W-TX` (rule R86): the latched response goes out whole, in its order. -/
def wTx (s : State) : State := { s.txWrite s.resp with resp := [], phase := .idle }

/-- `W-SLEEP` (rule R87). -/
def wSleep (s : State) : State := { s with wk := .blocked }

/-- `W-EXPIRE` (rule R88): the frame in progress is given up. -/
def wExpire (s : State) : State := s.abandon .underfillAbandon

/-- The effect of a worker step. `W-DECODE` decodes the latched header and runs its operation (rule R85). -/
def runWorkerStep (w : WorkerStep) (s : State) : Host.Outcome State Fault Refusal :=
  match w with
  | .wStop => .next (wStop s)
  | .wWake => .next (wWake s)
  | .wPop => .next (wPop s)
  | .wDecode => exec (decodeInstr s.hdr0 s.hdr1) s
  | .wTx => .next (wTx s)
  | .wSleep => .next (wSleep s)
  | .wExpire => .next (wExpire s)

/-- A turn of the worker: the step that is enabled is taken if the turn lets it be; otherwise nothing happens. -/
def workerTurn (t : Turn) (s : State) : Host.Outcome State Fault Refusal :=
  match nextWorkerStep s with
  | some w => if grants t w then runWorkerStep w s else .next s
  | none => .next s

/-- One turn of the machine (rule R80). -/
def runTurn (t : Turn) (s : State) : Host.Outcome State Fault Refusal :=
  match t with
  | .rxByte b => .next (iPush Config.hw.qcap b s)
  | .stopReq => .next (sRaise s)
  | .reset => .next s.resetBlock
  | .underfillExpired => workerTurn .underfillExpired s
  | .txReady => workerTurn .txReady s
  | .worker => workerTurn .worker s

end Sys2Proof.Machine
end

