-- ==== Sys2Proof/Machine/Step.lean ====
section
/-! DEFINITION. One step of the machine, and the placing of an instruction where the next step takes it. -/

namespace Sys2Proof.Machine

/-- One atomic step (rule R80): the next turn is taken off the inputs and played. -/
def step (s : State) : Host.Outcome State Fault Refusal :=
  runTurn s.nextTurn s.advanceTurn

/-- The state with the table word's header in the header latches and the worker's turn next, so that the next step is
the `W-DECODE` of that header (log entry 3). -/
def State.withFetchWord (s : State) (nbits w : Nat) : State :=
  s.placeHeader (headerByte0 (tableHeader nbits w)) (headerByte1 (tableHeader nbits w))

end Sys2Proof.Machine
end

