-- ==== Sys2Proof/Machine/Client.lean ====
section
/-! DEFINITION. The host's request and response client (rules R133 to R135), the pseudo-instructions of rule R76. The
host is no part of the block and takes no step of the machine: a call here is a function from what the link brings
the host within its timeout to what the call sends and returns. -/

namespace Sys2Proof.Machine

/-- What the link brings to a call: whether the transport fails, and the bytes that arrive in the call's timeout
window, those left over from before included (rules R139, R200). -/
structure Link where
  failed : Bool
  input : List Byte
deriving DecidableEq, Repr

/-- A call of the client: the bytes it hands to the transport, and what it returns. That the whole frame counts as sent
where the transport fails, which the spec leaves open, is the model's choice (DESIGN CHOICE, log entry 25). -/
structure HostCall (α : Type) where
  sent : List Byte
  result : Except HostError α

/-- Response bytes assembled into a value, in the byte order of the link (rules R40, R133). -/
def assemble (msbFirst : Bool) (bytes : List Byte) : Nat :=
  (if msbFirst then bytes else bytes.reverse).foldl (fun n b => n * 256 + b.toNat) 0

/-- `read_register` (rule R133): the value of exactly `width` bytes, with the bytes left in the host's input (rule
R139); `Timeout` where fewer arrive, `LinkError` where the transport fails, the frame being sent all the same (DESIGN
CHOICE, log entry 25). -/
def readRegister (c : Config) (link : Link) (reg : Byte) (width : Nat) : HostCall (Nat × List Byte) where
  sent := encodeRead reg
  result :=
    if link.failed then .error .linkError
    else if link.input.length < width then .error .timeout
    else .ok (assemble c.respMsbFirst (link.input.take width), link.input.drop width)

/-- What `write_register` returns for the bytes that came: success iff the status byte is 0 (rule R134). How it reports
that none came is not said: a free value (log entry 8). -/
def writeStatus : List Byte → Except HostError (Bool × List Byte)
  | [] => if Config.freeSilentWrite then .error .timeout else .ok (false, [])
  | b :: rest => .ok (b == 0#8, rest)

/-- `write_register` (rule R134), with the bytes left in the host's input. Where the transport fails the frame is sent
all the same (DESIGN CHOICE, log entry 25). -/
def writeRegister (link : Link) (reg : Byte) (payload : List Byte) : HostCall (Bool × List Byte) :=
  match encodeWrite reg payload with
  | .error e => ⟨[], .error e⟩
  | .ok frame => ⟨frame, if link.failed then .error .linkError else writeStatus link.input⟩

/-- `read_status` (rule R135): whether the two bytes read from register 2 are the status token. -/
def readStatus (c : Config) (link : Link) : HostCall Bool where
  sent := (readRegister c link 2#8 2).sent
  result :=
    match (readRegister c link 2#8 2).result with
    | .ok (v, _) => .ok (v == c.statusToken.toNat)
    | .error e => .error e

end Sys2Proof.Machine
end

