-- ==== Sys2Proof/Machine/FrameRules.lean ====
section
/-! DEFINITION. The frame rules of `41_read_frames.md`, `42_write_frames.md` and `43_ignored_frames.md` run over a byte
sequence, with no queue, no flags and no agents: what rule R59 says the transmit stream is under every schedule. The
step function does not use this file. -/

namespace Sys2Proof.Machine

/-- Which byte of which frame the next byte is (rule R27). -/
inductive Cursor where
  /-- The address byte of a new frame. -/
  | idle
  /-- The register byte of the frame with this address byte. -/
  | header (byte0 : Byte)
  /-- The length byte of a `WR` frame. -/
  | awaitLen
  /-- A payload byte, with this many still to come, itself included. -/
  | drain (left : Byte)
deriving DecidableEq, Repr

/-- The response an operation has (rules R65, R101 to R105, R110, R120), and the oracles after its call, if it makes
one. -/
def answer (c : Config) (i : Instr) (o : Oracles) : List Byte × Oracles :=
  match i with
  | .rdAdc => regRead c .adcReading o
  | .rdBtn => regRead c .buttonMask o
  | .rdStatus => regRead c .statusToken o
  | .rdRate => regRead c .sampleRateEstimate o
  | .rdUnmapped _ => ([], o)
  | .wr _ => ([], o)
  | .ign _ _ _ => ([], o)

/-- Where the frame rules stand after a header (rule R73). -/
def afterHeader (i : Instr) : Cursor := if i.isWrite then .awaitLen else .idle

/-- One byte run through the frame rules: where they stand after it, the oracles, and the bytes sent because of it. -/
def serveByte (c : Config) (cur : Cursor) (o : Oracles) (b : Byte) : Cursor × Oracles × List Byte :=
  match cur with
  | .idle => (.header b, o, [])
  | .header a =>
    (afterHeader (decodeInstr a b), (answer c (decodeInstr a b) o).2, (answer c (decodeInstr a b) o).1)
  | .awaitLen => (if b = 0#8 then .idle else .drain b, o, [])
  | .drain left => (if left - 1#8 = 0#8 then .idle else .drain (left - 1#8), o, [])

/-- The bytes sent for a byte sequence, from a place in a frame (rule R59). -/
def serveBytes (c : Config) (cur : Cursor) (o : Oracles) : List Byte → List Byte
  | [] => []
  | b :: rest =>
    (serveByte c cur o b).2.2 ++ serveBytes c (serveByte c cur o b).1 (serveByte c cur o b).2.1 rest

/-- Where the frame rules stand after a byte sequence. -/
def cursorAfter (c : Config) (cur : Cursor) (o : Oracles) : List Byte → Cursor
  | [] => cur
  | b :: rest => cursorAfter c (serveByte c cur o b).1 (serveByte c cur o b).2.1 rest

end Sys2Proof.Machine
end

