-- ==== Sys2Proof/Safety.lean ====
section
/-! DEFINITION. What claims about a run are made of: the invariants of rule R33, the state at rest (rule R94), the
transitions of rule R90, the fields no rule may read (rules R23, R24), and the named premises of rule R214. -/

namespace Sys2Proof.Machine

/-- The invariants (i) to (vi) of rule R33 on a single state, with rule R22 on `wk` in `Stopped` and rule R83 on the
flags there. That no step but reset is enabled in `Stopped` is a statement about steps, made where steps are. -/
abbrev State.Inv (s : State) : Prop :=
  s.q.length ≤ Config.hw.qcap ∧
  (s.wk = .blocked → s.phase = .idle ∨ s.phase = .stopped) ∧
  ((s.phase = .responding ↔ s.resp ≠ []) ∧ s.resp.length ≤ 2) ∧
  ((s.wsub ≠ .none → s.phase = .dispatching) ∧ (s.wsub = .drain → s.drainCnt ≠ 0#8)) ∧
  (s.phase ≠ .stopped → s.wk = .blocked → s.q ≠ [] → s.dataReady = true) ∧
  (s.phase = .stopped → s.q = [] ∧ s.wk = .blocked ∧ s.stop = false ∧ s.dataReady = false)

/-- At rest (rule R94): the worker has exited, or waits with nothing raised and nothing queued. -/
abbrev State.AtRest (s : State) : Prop :=
  s.phase = .stopped ∨
  (s.wk = .blocked ∧ s.phase = .idle ∧ s.q = [] ∧ s.stop = false ∧ s.dataReady = false)

/-- Nothing is left to do with the bytes received: none is queued, none waits to be decoded, no response waits to be
written. At rest, or waiting inside a frame for a push or an expiry (rule R215). -/
abbrev State.Drained (s : State) : Prop :=
  s.q = [] ∧ s.phase ≠ .responding ∧ ¬ (s.phase = .dispatching ∧ s.wsub = .none)

/-- The transitions of the state machine other than reset, as pairs of `phase` and `wsub` (rule R90). -/
def transitions : List ((Phase × Wsub) × (Phase × Wsub)) :=
  [((.idle, .none), (.headerPartial, .none)),
   ((.headerPartial, .none), (.dispatching, .none)),
   ((.headerPartial, .none), (.idle, .none)),
   ((.dispatching, .none), (.idle, .none)),
   ((.dispatching, .none), (.responding, .none)),
   ((.dispatching, .none), (.dispatching, .awaitLen)),
   ((.dispatching, .awaitLen), (.idle, .none)),
   ((.dispatching, .awaitLen), (.dispatching, .drain)),
   ((.dispatching, .drain), (.idle, .none)),
   ((.dispatching, .drain), (.dispatching, .drain)),
   ((.responding, .none), (.idle, .none)),
   ((.idle, .none), (.stopped, .none))]

/-- A state with the fields that may not be read where they stand set to a fixed value: `hdr0` outside `HeaderPartial`
and `Dispatching`, `hdr1` outside `Dispatching` (rule R23), `drain_cnt` outside the drain (rule R24). Two states are
the same to every rule if they are equal after this. -/
def State.masked (s : State) : State :=
  { s with
    hdr0 := if s.phase = .headerPartial ∨ s.phase = .dispatching then s.hdr0 else 0#8
    hdr1 := if s.phase = .dispatching then s.hdr1 else 0#8
    drainCnt := if s.phase = .dispatching ∧ s.wsub = .drain then s.drainCnt else 0#8 }

/-- The bytes received in a sequence of turns, in order. -/
def rxBytes : List Turn → List Byte
  | [] => []
  | .rxByte b :: ts => b :: rxBytes ts
  | .stopReq :: ts => rxBytes ts
  | .underfillExpired :: ts => rxBytes ts
  | .txReady :: ts => rxBytes ts
  | .reset :: ts => rxBytes ts
  | .worker :: ts => rxBytes ts

/-- Premise `CleanEntry` (rule R214): the start state is the reset state, in every field a rule may read. -/
abbrev State.CleanEntry (s : State) : Prop :=
  s.q = [] ∧ s.stop = false ∧ s.dataReady = false ∧ s.phase = .idle ∧ s.wk = .blocked ∧ s.wsub = .none ∧
  s.resp = []

/-- Premise `NoDrop` (rule R214) for the next `n` steps: the queue has room at every received byte. -/
def State.NoDrop : Nat → State → Prop
  | 0, _ => True
  | n + 1, s =>
    (∀ b, s.nextTurn = .rxByte b → s.q.length < Config.hw.qcap) ∧
    ∀ t, step s = .next t → State.NoDrop n t

/-- Premise `NoStop` (rule R214) for a sequence of turns. -/
def noStop (ts : List Turn) : Bool := ts.all (fun t => t != .stopReq)

/-- Premise `NoReset` (rule R214) for a sequence of turns. -/
def noReset (ts : List Turn) : Bool := ts.all (fun t => t != .reset)

/-- No expiry anywhere in a sequence of turns: the premise of rule R59. -/
def noExpiry (ts : List Turn) : Bool := ts.all (fun t => t != .underfillExpired)

/-- Premise `NoExpiryInFrame` (rule R214): given how many bytes of the frame being sent are still to come and the
lengths of the frames after it, no expiry falls between the first and the last byte of a frame. -/
def noExpiryInFrame : Nat → List Nat → List Turn → Bool
  | _, _, [] => true
  | 0, [], .rxByte _ :: ts => noExpiryInFrame 0 [] ts
  | 0, len :: lens, .rxByte _ :: ts => noExpiryInFrame (len - 1) lens ts
  | left + 1, lens, .rxByte _ :: ts => noExpiryInFrame left lens ts
  | left, lens, .underfillExpired :: ts => left == 0 && noExpiryInFrame left lens ts
  | left, lens, .stopReq :: ts => noExpiryInFrame left lens ts
  | left, lens, .txReady :: ts => noExpiryInFrame left lens ts
  | left, lens, .reset :: ts => noExpiryInFrame left lens ts
  | left, lens, .worker :: ts => noExpiryInFrame left lens ts

/-- Premise `TxFair` (rule R214) for an endless schedule: the worker is scheduled, and the transport ready, again and
again. -/
def TxFair (schedule : Nat → Turn) : Prop :=
  ∀ n, (∃ m, n ≤ m ∧ schedule m = .worker) ∧ ∃ m, n ≤ m ∧ schedule m = .txReady

/-- Premise `WholeFrames` (rules R202, R214): the sent bytes are those of these requests, each complete, a WRITE for
another device with its length byte and payload too. -/
def WholeFrames (requests : List Request) (sent : List Byte) : Prop :=
  (∀ r ∈ requests, r.wellFormed = true) ∧ sent = requests.flatMap Request.bytes

/-- Premise `OwnAddressOnly` (rules R201, R214): every request is for this device. -/
def OwnAddressOnly (requests : List Request) : Prop :=
  ∀ r ∈ requests, r.peer = Config.hw.peerAddr

/-- Premise `InOrderBytes` (rule R214): the received bytes are the sent bytes. -/
def InOrderBytes (sent : List Byte) (ts : List Turn) : Prop := rxBytes ts = sent

/-- Premise `WidthAgreed` (rule R214): the widths and the byte order the host goes by are those of this block. -/
def WidthAgreed (hostWidths : List Nat) (hostMsbFirst : Bool) : Prop :=
  hostWidths = Config.hw.regWidth ∧ hostMsbFirst = Config.hw.respMsbFirst

/-- A run of `n` steps of the machine, stopping at the first fault or refusal: what the host's `Core.run` plays. -/
def runSteps : Nat → State → Host.Outcome State Fault Refusal
  | 0, s => .next s
  | n + 1, s =>
    match step s with
    | .next t => runSteps n t
    | .fault r => .fault r
    | .refused r => .refused r

/-! ### The host's requests

The premises of rule R214 that speak of the host's conduct, over a run cut into the host's requests. -/

/-- How a request ends for the host: "success, timeout, or error" (rule R136). -/
inductive Completion where
  /-- The response was read. -/
  | response
  /-- The host's timeout ran out (rule R133). -/
  | timedOut
  /-- `LinkError`: the host's transport failed (rule R137). -/
  | linkFailed
deriving DecidableEq, Repr

/-- One request of the host as the block meets it: what was asked, the bytes the host sent for it, the turns up to the
last byte received of it, the turns of the silence after that, until the host sends again, and how the request ended. The
block does not see at which of these turns it ended (log entry 32). -/
structure Exchange where
  request : Request
  sent : List Byte
  arrival : List Turn
  silence : List Turn
  completion : Completion
deriving DecidableEq, Repr

/-- All turns of a request. -/
def Exchange.turns (x : Exchange) : List Turn := x.arrival ++ x.silence

/-- All turns of a sequence of requests. -/
def exchangeTurns (xs : List Exchange) : List Turn := xs.flatMap Exchange.turns

/-- Between two states of a run the response to the request has gone out: it is a READ of a register of this device, and
the transmit stream has grown by at least that register's width. -/
def Exchange.Answered (x : Exchange) (s t : State) : Prop :=
  ∃ reg r, x.request = .rdx Config.hw.peerAddr reg ∧ lookupRegister reg = some r ∧
    s.tx.length + r.width ≤ t.tx.length

/-- Premise `OneOutstanding` (rules R136, R198, R214) for a run from a state: the host sends again only when the request
before is no longer outstanding. One that ended with its response was answered in its turns; one that ended by timeout
or error ended no earlier than the block was done with it, so that no byte of it is queued and no late response to it
follows (DEDUCED, log entry 32). -/
def State.OneOutstanding : State → List Exchange → Prop
  | _, [] => True
  | s, x :: xs =>
    ∀ t, runSteps x.turns.length s = .next t →
      (x.completion = .response → x.Answered s t) ∧ (x.completion ≠ .response → t.Drained) ∧
      State.OneOutstanding t xs

/-- In one of the next `n` steps an expiry falls at a moment when nothing received is left to do but to await more of
a frame. -/
def State.ExpiryFalls : Nat → State → Prop
  | 0, _ => False
  | n + 1, s => (s.nextTurn = .underfillExpired ∧ s.Drained) ∨ ∃ t, step s = .next t ∧ State.ExpiryFalls n t

/-- Premise `ExpiryInSilence` (rules R204 (b), R214) for a run from a state: in the silence of every request that ended
without its response, in which no byte is received, an expiry falls once the worker has drained the queue (DEDUCED,
log entry 32). -/
def State.ExpiryInSilence : State → List Exchange → Prop
  | _, [] => True
  | s, x :: xs =>
    rxBytes x.silence = [] ∧
    ∀ m, runSteps x.arrival.length s = .next m →
      (x.completion ≠ .response → m.ExpiryFalls x.silence.length) ∧
      ∀ t, runSteps x.silence.length m = .next t → State.ExpiryInSilence t xs

/-- Alternate turns for the worker and for the transport: a fair schedule in its shortest form (rule R93). -/
def fairTurns : Nat → List Turn
  | 0 => []
  | n + 1 => .worker :: .txReady :: fairTurns n

end Sys2Proof.Machine
end

