-- ==== Sys2Proof/Certificates/Slice0/Obligations.lean ====
section
/-! DEFINITION. The statements about the block, for the provers. Each docstring names the rules of spec/ it formalises.
A run here is `runSteps`; the turns a hypothesis fixes at the head of `turns` are the schedule the statement speaks
of, and `ts` is whatever comes after them. -/

open Sys2Proof Sys2Proof.Machine

/-! ### Encoding -/

/-- Rule R66: the header decode, read as numbers, and the length operand of a `WR` frame. -/
def Obligations.HeaderFieldsOfTwoBytes : Prop :=
  (∀ a r : Byte, (decodeHeader a r).read = decide (128 ≤ a.toNat) ∧
    (decodeHeader a r).peer.toNat = a.toNat % 128 ∧ (decodeHeader a r).reg = r) ∧
  ∀ (reg len : Byte) (p rest : List Byte), p.length = len.toNat →
    decodeFrame (0x48#8 :: reg :: len :: (p ++ rest)) = .ok (⟨.wr reg, p⟩, rest)

/-- Rule R67: every header selects one of the seven operations, by the address first, then the read flag and the
register address; and how many headers each selects. -/
def Obligations.OpcodeMapOfTheHeader : Prop :=
  (∀ a r : Byte,
    (a.toNat % 128 ≠ 72 → decodeInstr a r = .ign (decide (128 ≤ a.toNat)) (BitVec.ofNat 7 a.toNat) r) ∧
    (a = 0xC8#8 → decodeInstr a r =
      if r = 0#8 then .rdAdc else if r = 1#8 then .rdBtn else if r = 2#8 then .rdStatus else if r = 3#8 then .rdRate
      else .rdUnmapped r) ∧
    (a = 0x48#8 → decodeInstr a r = .wr r) ∧
    (a.toNat % 128 ≠ 72 ∨ a = 0xC8#8 ∨ a = 0x48#8)) ∧
  ((List.range 256).filter (fun n => n % 128 ≠ 72)).length * 256 = 65024 ∧
  ((List.range 256).filter (fun n => 4 ≤ n)).length = 252

/-- Rules R63, R64, R67: the decoder reads back every well-formed operation from its encoding, whatever bytes follow. -/
def Obligations.DecodeOfEncodeIsTheInstruction : Prop :=
  ∀ (i : Instr) (rest : List Byte), i.wellFormed = true → decode (encode i ++ rest) = .ok (i, rest)

/-- Rules R61, R66, R67: every pair of bytes decodes to a well-formed operation, whose encoding is that pair. -/
def Obligations.EncodeOfDecodeIsTheBytes : Prop :=
  ∀ a r : Byte, (decodeInstr a r).wellFormed = true ∧ encode (decodeInstr a r) = [a, r]

/-- Rules R60, R63, R64, R73: the frame decoder reads back every frame, payload included, and leaves the bytes after
it. That the frame of a WRITE header for another device ends at its two bytes, with no length byte, is the spec's own
decision D8 (DESIGN CHOICE, log entry 15). -/
def Obligations.DecodeOfEncodedFrameIsTheFrame : Prop :=
  ∀ (f : Frame) (rest : List Byte), f.wellFormed = true → decodeFrame (encodeFrame f ++ rest) = .ok (f, rest)

/-- Rule R68: every header word is selected by exactly one row of the opcode table, and that row names the operation
the decoder reads. -/
def Obligations.OneTableRowSelectsEachHeader : Prop :=
  ∀ h : Half, (tableRows.filter (fun row => row.selects h)).map TableRow.mnemonic =
    [(decodeInstr (headerByte0 h) (headerByte1 h)).mnemonic]

/-- `95_test_vectors.md` section 2.1: header bytes written out from rules R61 to R64 decode to the operations they
stand for. -/
def Obligations.WrittenOutHeadersDecode : Prop :=
  decode [0b11001000#8, 0b00000000#8] = .ok (.rdAdc, []) ∧
  decode [0b11001000#8, 0b00000011#8] = .ok (.rdRate, []) ∧
  decode [0b11001000#8, 0b00000100#8] = .ok (.rdUnmapped 4#8, []) ∧
  decode [0b01001000#8, 0b00000101#8] = .ok (.wr 5#8, []) ∧
  decode [0b11001001#8, 0b00000010#8] = .ok (.ign true 0x49#7 2#8, []) ∧
  decode [0b00000000#8, 0b11001000#8] = .ok (.ign false 0#7 0xC8#8, [])

/-- Rule R69: no encoding is refused; a byte sequence is rejected only for ending too soon, by name. -/
def Obligations.OnlyTruncationIsRejected : Prop :=
  (∀ bytes : List Byte, (∃ e, decode bytes = .error e) ↔ bytes.length < 2) ∧
  (∀ reg : Byte, decodeFrame [0x48#8, reg] = .error .truncatedLength) ∧
  ∀ (reg len : Byte) (p : List Byte), p.length < len.toNat →
    decodeFrame (0x48#8 :: reg :: len :: p) = .error .truncatedPayload

/-- Rule R130: `encode_read`, and its round trip through the header decode. -/
def Obligations.EncodeReadGivesTheFrame : Prop :=
  ∀ r : Byte, encodeRead r = [0xC8#8, r] ∧
    decodeHeader 0xC8#8 r = ⟨true, 0x48#7, r⟩ ∧ decodeFrame (encodeRead r) = .ok (⟨decodeInstr 0xC8#8 r, []⟩, [])

/-- Rule R131: `encode_write`, its limit of 255 payload bytes, and its round trip. -/
def Obligations.EncodeWriteGivesTheFrameOrFails : Prop :=
  ∀ (r : Byte) (p : List Byte),
    (p.length ≤ 255 → ∃ frame, encodeWrite r p = .ok frame ∧
      frame = 0x48#8 :: r :: BitVec.ofNat 8 p.length :: p ∧ decodeHeader 0x48#8 r = ⟨false, 0x48#7, r⟩ ∧
      decodeFrame frame = .ok (⟨.wr r, p⟩, [])) ∧
    (255 < p.length → encodeWrite r p = .error .payloadTooLarge)

/-! ### The operations at their dispatch -/

/-- Rules R85, R101, R46: `RD_ADC` calls the converter once, touches the other oracle in nothing, and latches the two
bytes of the one value, the most significant first; nothing else changes. A fixed answer is the value. The spec's own
decisions D1, D9 and D11 are behind it (log entries 9, 16 and 6). -/
def Obligations.ReadAdcLatchesOneReading : Prop :=
  ∀ s : State, ∃ (v : Half) (hi lo : Byte) (o : Oracles),
    exec .rdAdc s = .next { s with oracles := o, resp := [hi, lo], phase := .responding } ∧
    hi.toNat * 256 + lo.toNat = v.toNat ∧ (∀ w rest, s.oracles.adcAnswers = w :: rest → v = w) ∧
    o = { s.oracles with adcCalls := s.oracles.adcCalls + 1, adcAnswers := s.oracles.adcAnswers.tail }

/-- Rules R85, R102, R13: `RD_BTN` latches one byte, the placeholder of the configuration, the same at every read; no
oracle is called and nothing else changes. The spec's own decisions D9 and D10 are behind it (log entries 16 and 5).
-/
def Obligations.ReadButtonLatchesOneConstantByte : Prop :=
  ∃ v : Byte, v = Config.hw.btnPlaceholder ∧
    ∀ s : State, exec .rdBtn s = .next { s with resp := [v], phase := .responding }

/-- Rules R85, R103, R14: `RD_STATUS` latches 0x4F, 0x4B at every read; no oracle is called and nothing else changes.
The spec's own decision D1 is behind it (log entry 9). -/
def Obligations.ReadStatusLatchesTheToken : Prop :=
  ∀ s : State, exec .rdStatus s = .next { s with resp := [0x4F#8, 0x4B#8], phase := .responding }

/-- Rules R85, R104: `RD_RATE` calls the estimator once, touches the other oracle in nothing, and latches the two
bytes of the one value, the most significant first; nothing else changes. A fixed answer is the value. The spec's own
decisions D1, D9 and D12 are behind it (log entries 9, 16 and 6). -/
def Obligations.ReadRateLatchesOneEstimate : Prop :=
  ∀ s : State, ∃ (v : Half) (hi lo : Byte) (o : Oracles),
    exec .rdRate s = .next { s with oracles := o, resp := [hi, lo], phase := .responding } ∧
    hi.toNat * 256 + lo.toNat = v.toNat ∧ (∀ w rest, s.oracles.rateAnswers = w :: rest → v = w) ∧
    o = { s.oracles with rateCalls := s.oracles.rateCalls + 1, rateAnswers := s.oracles.rateAnswers.tail }

/-- Rules R85, R105, R120, R160, R166: a READ of an address outside the table and a header for another device are given
up: back to `Idle`, and nothing else changes, whatever the operands. -/
def Obligations.UnservedHeadersAreGivenUp : Prop :=
  ∀ s : State,
    (∀ reg : Byte, exec (.rdUnmapped reg) s = .next { s with phase := .idle, wsub := .none }) ∧
    ∀ (read : Bool) (peer : Peer) (reg : Byte),
      exec (.ign read peer reg) s = .next { s with phase := .idle, wsub := .none }

/-- Rules R85, R110, R112: at its dispatch a `WR` turns to awaiting its length byte, and nothing else changes,
whatever the register address. The spec's own decision D7 is behind it (log entry 14). -/
def Obligations.WriteTurnsToItsLengthByte : Prop :=
  ∀ (s : State) (reg : Byte), exec (.wr reg) s = .next { s with wsub := .awaitLen }

/-- Rule R100: the dispatcher's answer for each register in either byte order, and that only the oracle of the
register read is called. The spec's own decision D1 is behind it (log entry 9). -/
def Obligations.RegisterDispatcherAnswers : Prop :=
  ∀ (c : Config) (o : Oracles),
    (regRead c .adcReading o).1 =
      (if c.respMsbFirst then [hi8 (adcRead c.adcChannel o).1, lo8 (adcRead c.adcChannel o).1]
        else [lo8 (adcRead c.adcChannel o).1, hi8 (adcRead c.adcChannel o).1]) ∧
    regRead c .buttonMask o = ([c.btnPlaceholder], o) ∧
    regRead Config.hw .statusToken o = ([0x4F#8, 0x4B#8], o) ∧
    regRead { Config.hw with respMsbFirst := false } .statusToken o = ([0x4B#8, 0x4F#8], o) ∧
    (regRead c .sampleRateEstimate o).1 =
      (if c.respMsbFirst then [hi8 (rateEstimate o).1, lo8 (rateEstimate o).1]
        else [lo8 (rateEstimate o).1, hi8 (rateEstimate o).1]) ∧
    (regRead c .adcReading o).2.adcCalls = o.adcCalls + 1 ∧ (regRead c .adcReading o).2.rateCalls = o.rateCalls ∧
    (regRead c .sampleRateEstimate o).2.rateCalls = o.rateCalls + 1 ∧
    (regRead c .sampleRateEstimate o).2.adcCalls = o.adcCalls

/-- Rules R11, R45, R85: a READ of this device is served exactly where the look-up of its register byte finds a
register, and the response then has that register's width. -/
def Obligations.ServedReadsAreTheTableEntries : Prop :=
  ∀ (r : Byte) (s : State),
    ((decodeInstr 0xC8#8 r).isServedRead = true ↔ ∃ reg, lookupRegister r = some reg) ∧
    (∀ reg, lookupRegister r = some reg →
      ∃ t, exec (decodeInstr 0xC8#8 r) s = .next t ∧ t.phase = .responding ∧ t.resp.length = reg.width ∧
        t.resp = (regRead Config.hw reg.semantics s.oracles).1) ∧
    (lookupRegister r = none ↔ 4 ≤ r.toNat)

/-! ### Steps -/

/-- Rule R85: on a turn of the worker with a complete header latched and not yet decoded, the step is the operation the
latches decode to, run on the state with that turn taken. -/
def Obligations.StepRunsTheLatchedHeader : Prop :=
  ∀ s : State, s.nextTurn = .worker → s.phase = .dispatching → s.wsub = .none →
    step s = exec (decodeInstr s.hdr0 s.hdr1) s.advanceTurn

/-- The placing of a table word is where the next step takes its operation from: it runs the operation that the word
decodes to (log entry 3). -/
def Obligations.PlacedWordRunsNext : Prop :=
  ∀ (s : State) (nbits w : Nat), ∃ i, decodeTableWord nbits w = some i ∧
    step (s.withFetchWord nbits w) = exec i (s.withFetchWord nbits w).advanceTurn

/-- Rule R82: the wake consumes `DataReady` and leaves the wait; at an empty queue the worker goes back to the wait
with its next turn, the flag consumed. The spec's own decision D4 is behind it (log entry 11). -/
def Obligations.WakeConsumesDataReady : Prop :=
  ∀ s : State, s.nextTurn = .worker → s.wk = .blocked → s.phase = .idle → s.stop = false → s.dataReady = true →
    step s = .next { s.advanceTurn with dataReady := false, wk := .running } ∧
    (s.q = [] → s.advanceTurn.nextTurn = .worker →
      runSteps 2 s = .next { s.advanceTurn.advanceTurn with dataReady := false })

/-- Rules R83, R158: at the wait with `Stop` raised, whatever `DataReady` is, the worker releases the queue and exits;
and `Stop` is looked at nowhere else: a running worker's next step does not depend on it. The spec's own decisions D4,
D14 and D15 are behind it (log entries 11 and 18). -/
def Obligations.StopAtTheWaitReleasesAndExits : Prop :=
  (∀ s : State, s.nextTurn = .worker → s.wk = .blocked → s.phase = .idle → s.stop = true →
    step s = .next { s.advanceTurn with
      q := [], phase := .stopped, stop := false, dataReady := false, wk := .blocked, wsub := .none, resp := [] }) ∧
  ∀ (s : State) (b : Bool), s.wk = .running → nextWorkerStep { s with stop := b } = nextWorkerStep s

/-- Rule R84: `W-POP` in each of its four places takes the head of the queue as the next byte of the frame, and
nothing else changes. The spec's own decisions D5 and D7 are behind it (log entries 12 and 14). -/
def Obligations.PopTakesTheNextByteOfTheFrame : Prop :=
  ∀ (s : State) (b : Byte) (rest : List Byte), s.nextTurn = .worker → s.wk = .running → s.q = b :: rest →
    (s.phase = .idle →
      step s = .next { s.advanceTurn with q := rest, hdr0 := b, phase := .headerPartial }) ∧
    (s.phase = .headerPartial →
      step s = .next { s.advanceTurn with q := rest, hdr1 := b, phase := .dispatching, wsub := .none }) ∧
    (s.phase = .dispatching → s.wsub = .awaitLen →
      step s = .next (if b = 0#8 then { s.advanceTurn with q := rest, phase := .idle, wsub := .none }
        else { s.advanceTurn with q := rest, drainCnt := b, wsub := .drain })) ∧
    (s.phase = .dispatching → s.wsub = .drain → s.drainCnt ≠ 0#8 →
      step s = .next (if s.drainCnt = 1#8
        then { s.advanceTurn with q := rest, drainCnt := 0#8, phase := .idle, wsub := .none }
        else { s.advanceTurn with q := rest, drainCnt := s.drainCnt - 1#8 }))

/-- Rule R86: at `TxReady` a latched response goes out whole, in its order; without it the worker does nothing while
one is latched. The spec's own decision D16 is behind it (log entries 19 and 7). -/
def Obligations.ResponseIsWrittenWhole : Prop :=
  ∀ s : State, s.phase = .responding →
    (s.nextTurn = .txReady → step s = .next { s.advanceTurn with tx := s.tx ++ s.resp, resp := [], phase := .idle }) ∧
    (s.nextTurn = .worker ∨ s.nextTurn = .underfillExpired → step s = .next s.advanceTurn)

/-- Rule R87: with the queue empty and no frame in progress the worker goes back to the wait, and a byte pushed in
between, which left `DataReady` raised, wakes it with its next turn. The spec's own decision D4 is behind it (log
entry 11). -/
def Obligations.SleepAtAnEmptyQueue : Prop :=
  ∀ s : State, s.nextTurn = .worker → s.wk = .running → s.phase = .idle → s.q = [] →
    step s = .next { s.advanceTurn with wk := .blocked } ∧
    (s.dataReady = true → s.stop = false → nextWorkerStep { s with wk := .blocked } = some .wWake)

/-- Rule R88: at an empty queue inside a frame the expiry gives the frame up, and the worker's next step is `W-SLEEP`;
where a byte is queued the expiry does nothing, and the worker's step is the pop. The spec's own decision D6 is behind
it (log entries 13 and 7). -/
def Obligations.ExpiryGivesUpTheFrameInProgress : Prop :=
  ∀ s : State, s.nextTurn = .underfillExpired → s.wk = .running → s.busy = true →
    (s.q = [] → step s = .next { s.advanceTurn with phase := .idle, wsub := .none } ∧
      nextWorkerStep { s with phase := .idle, wsub := .none } = some .wSleep) ∧
    (s.q ≠ [] → step s = .next s.advanceTurn ∧ nextWorkerStep s = some .wPop)

/-- Rule R89: at most one worker step is enabled in any state, and which one it is in each case. The spec's own
decision D4 is behind it (log entry 11). -/
def Obligations.AtMostOneWorkerStepIsEnabled : Prop :=
  (∀ (s : State) (w w' : WorkerStep), enabled w s = true → enabled w' s = true → w = w') ∧
  ∀ s : State, s.Inv → nextWorkerStep s =
    if s.phase = .stopped then none
    else if s.wk = .blocked then
      (if s.stop then some .wStop else if s.dataReady then some .wWake else none)
    else if s.phase = .responding then some .wTx
    else if s.phase = .dispatching ∧ s.wsub = .none then some .wDecode
    else if s.q ≠ [] then some .wPop
    else if s.phase = .idle then some .wSleep
    else some .wExpire

/-- Rule R152: the handler's step: push or drop, then raise; nothing once stopped. It looks at no other field. The
spec's own decisions D3 and D14 are behind it (log entries 10 and 18). -/
def Obligations.HandlerPushesThenRaises : Prop :=
  ∀ (s : State) (b : Byte), s.nextTurn = .rxByte b →
    (s.phase = .stopped → step s = .next s.advanceTurn) ∧
    (s.phase ≠ .stopped → s.q.length < Config.hw.qcap →
      step s = .next { s.advanceTurn with q := s.q ++ [b], dataReady := true }) ∧
    (s.phase ≠ .stopped → Config.hw.qcap ≤ s.q.length → step s = .next { s.advanceTurn with dataReady := true })

/-- Rules R153, R164 for a queue of any capacity: at a full queue the incoming byte is lost, and what is held is kept in
its order. -/
def Obligations.OverflowDropsTheIncomingByte : Prop :=
  ∀ (cap : Nat) (b : Byte) (q : List Byte),
    (q.length ≤ cap → (queuePush cap b q).length ≤ cap) ∧ (q.length = cap → queuePush cap b q = q) ∧
    q <+: queuePush cap b q

/-- Rule R155: `StopReq` raises `Stop` unless stopped, and nothing but it raises `Stop`: no frame does. The spec's own
decision D15 is behind it (log entry 18). -/
def Obligations.OnlyStopReqRaisesStop : Prop :=
  (∀ s : State, s.nextTurn = .stopReq →
    (s.phase ≠ .stopped → step s = .next { s.advanceTurn with stop := true }) ∧
    (s.phase = .stopped → step s = .next s.advanceTurn)) ∧
  ∀ s t : State, step s = .next t → s.stop = false → t.stop = true → s.nextTurn = .stopReq

/-- Rule R154: `DataReady` is raised by a received byte alone, and cleared by the wake, the exit and reset alone. The
spec's own decision D4 is behind it (log entry 11). -/
def Obligations.DataReadyIsRaisedByBytesAlone : Prop :=
  ∀ s t : State, step s = .next t →
    (s.dataReady = false → t.dataReady = true → ∃ b, s.nextTurn = .rxByte b) ∧
    (s.dataReady = true → t.dataReady = false →
      s.nextTurn = .reset ∨
      (s.nextTurn = .worker ∧ (nextWorkerStep s = some .wWake ∨ nextWorkerStep s = some .wStop)))

/-- Rules R171, R215, R211: once stopped, nothing but reset changes anything: bytes are discarded, nothing is sent,
and `StopReq` does nothing. The spec's own decision D14 is behind it (log entry 18). -/
def Obligations.StoppedIsLeftByResetAlone : Prop :=
  ∀ s : State, s.phase = .stopped → s.nextTurn ≠ .reset →
    step s = .next s.advanceTurn ∧ nextWorkerStep s = none

/-- Rules R21, R171: `Stopped` is entered only at the signal wait with `Stop` raised, with no frame in progress. The
spec's own decision D15 is behind it (log entry 18). -/
def Obligations.StoppedIsEnteredOnlyAtTheWait : Prop :=
  ∀ s t : State, step s = .next t → s.phase ≠ .stopped → t.phase = .stopped →
    s.nextTurn = .worker ∧ s.wk = .blocked ∧ s.phase = .idle ∧ s.stop = true

/-- Rules R190, R30: reset takes any state, `Stopped` included, to the reset state, with the transmit history
restarted and only the environment's inputs kept. That the unspecified latches are then 0 is the model's choice (log
entry 1). The spec's own decision D13 is behind it (log entry 17). -/
def Obligations.ResetTakesAnyStateToTheResetState : Prop :=
  ∀ s : State, s.nextTurn = .reset →
    step s = .next { State.reset with
      turns := s.turns.tail, turnCount := s.turnCount + 1, oracles := s.oracles }

/-- Rules R30, R214: the values the spec states for reset. The spec's own decision D13 is behind it (log entry 17). -/
def Obligations.ResetStateAsTheSpecGivesIt : Prop :=
  State.reset.q = [] ∧ State.reset.stop = false ∧ State.reset.dataReady = false ∧ State.reset.phase = .idle ∧
  State.reset.wk = .blocked ∧ State.reset.wsub = .none ∧ State.reset.resp = [] ∧ State.reset.tx = [] ∧
  State.reset.CleanEntry ∧ State.reset.AtRest

/-! ### Whole frames -/

/-- Rules R101, R91: an `RD_ADC` frame at the head of the queue of a running worker is answered with the two bytes of
one reading, the most significant first, in four steps of the worker. The spec's own decisions D1 and D16 are behind
it (log entries 9 and 19). -/
def Obligations.ReadAdcFrameIsAnswered : Prop :=
  ∀ (s : State) (rest : List Byte) (ts : List Turn), s.phase = .idle → s.wk = .running →
    s.q = 0xC8#8 :: 0x00#8 :: rest → s.turns = .worker :: .worker :: .worker :: .txReady :: ts →
    ∃ v : Half, v = (adcRead Config.hw.adcChannel s.oracles).1 ∧
      runSteps 4 s = .next { s with
        q := rest, hdr0 := 0xC8#8, hdr1 := 0x00#8, wsub := .none, resp := [], tx := s.tx ++ [hi8 v, lo8 v],
        turns := ts, turnCount := s.turnCount + 4, oracles := (adcRead Config.hw.adcChannel s.oracles).2 }

/-- Rules R102, R91: an `RD_BTN` frame is answered with the one placeholder byte. The spec's own decisions D10 and D16
are behind it (log entries 5 and 19). -/
def Obligations.ReadButtonFrameIsAnswered : Prop :=
  ∀ (s : State) (rest : List Byte) (ts : List Turn), s.phase = .idle → s.wk = .running →
    s.q = 0xC8#8 :: 0x01#8 :: rest → s.turns = .worker :: .worker :: .worker :: .txReady :: ts →
    runSteps 4 s = .next { s with
      q := rest, hdr0 := 0xC8#8, hdr1 := 0x01#8, wsub := .none, resp := [],
      tx := s.tx ++ [Config.hw.btnPlaceholder], turns := ts, turnCount := s.turnCount + 4 }

/-- Rules R103, R91: an `RD_STATUS` frame is answered with 0x4F, 0x4B. The spec's own decisions D1 and D16 are behind
it (log entries 9 and 19). -/
def Obligations.ReadStatusFrameIsAnswered : Prop :=
  ∀ (s : State) (rest : List Byte) (ts : List Turn), s.phase = .idle → s.wk = .running →
    s.q = 0xC8#8 :: 0x02#8 :: rest → s.turns = .worker :: .worker :: .worker :: .txReady :: ts →
    runSteps 4 s = .next { s with
      q := rest, hdr0 := 0xC8#8, hdr1 := 0x02#8, wsub := .none, resp := [], tx := s.tx ++ [0x4F#8, 0x4B#8],
      turns := ts, turnCount := s.turnCount + 4 }

/-- Rules R104, R91: an `RD_RATE` frame is answered with the two bytes of one estimate, the most significant first.
The spec's own decisions D1 and D16 are behind it (log entries 9 and 19). -/
def Obligations.ReadRateFrameIsAnswered : Prop :=
  ∀ (s : State) (rest : List Byte) (ts : List Turn), s.phase = .idle → s.wk = .running →
    s.q = 0xC8#8 :: 0x03#8 :: rest → s.turns = .worker :: .worker :: .worker :: .txReady :: ts →
    ∃ v : Half, v = (rateEstimate s.oracles).1 ∧
      runSteps 4 s = .next { s with
        q := rest, hdr0 := 0xC8#8, hdr1 := 0x03#8, wsub := .none, resp := [], tx := s.tx ++ [hi8 v, lo8 v],
        turns := ts, turnCount := s.turnCount + 4, oracles := (rateEstimate s.oracles).2 }

/-- Rules R105, R120, R91, R161, R162: a READ of an address outside the table, and any header for another device, lose
their two bytes, and nothing else comes of them: no byte sent, no handler called, no flag touched. That a WRITE header
for another device loses its two bytes alone is the spec's own decision D8 (DESIGN CHOICE, log entry 15). -/
def Obligations.UnservedFramesLoseTheirTwoBytes : Prop :=
  ∀ (s : State) (a r : Byte) (rest : List Byte) (ts : List Turn), s.phase = .idle → s.wk = .running →
    s.q = a :: r :: rest → s.turns = .worker :: .worker :: .worker :: ts →
    (a = 0xC8#8 ∧ 4 ≤ r.toNat ∨ a.toNat % 128 ≠ 72) →
    runSteps 3 s = .next { s with
      q := rest, hdr0 := a, hdr1 := r, wsub := .none, turns := ts, turnCount := s.turnCount + 3 }

/-- Rules R110 to R112, R114, R91: a whole `WR` frame is drained, `3 + len` bytes, whatever its register address, its
length and its payload, in `4 + len` steps of the worker; nothing is sent and nothing else changes. That the bytes are
popped into the header latches, `wsub` and the drain count, and that every register address is drained, is the spec's
own decision D7 (DESIGN CHOICE, log entry 14). -/
def Obligations.WriteFrameIsDrained : Prop :=
  ∀ (s : State) (reg len : Byte) (payload rest : List Byte) (ts : List Turn), s.phase = .idle → s.wk = .running →
    payload.length = len.toNat → s.q = 0x48#8 :: reg :: len :: (payload ++ rest) →
    s.turns = List.replicate (4 + len.toNat) .worker ++ ts →
    runSteps (4 + len.toNat) s = .next { s with
      q := rest, hdr0 := 0x48#8, hdr1 := reg, wsub := .none, drainCnt := (if len = 0#8 then s.drainCnt else 0#8),
      turns := ts, turnCount := s.turnCount + (4 + len.toNat) }

/-- Rules R122, R44: at an empty queue inside any frame in progress, an expiry and then a status READ whose two bytes
are handled before the worker's turns: the read is answered. The spec's own decision D6 is behind it (log entry 13).
-/
def Obligations.ExpiryRestoresThePairing : Prop :=
  ∀ (s : State) (ts : List Turn), s.wk = .running → s.busy = true → s.q = [] →
    s.turns = .underfillExpired :: .rxByte 0xC8#8 :: .rxByte 0x02#8 :: .worker :: .worker :: .worker :: .txReady :: ts →
    ∃ t, runSteps 7 s = .next t ∧ t.tx = s.tx ++ [0x4F#8, 0x4B#8] ∧ t.phase = .idle ∧ t.q = [] ∧ t.turns = ts

/-! ### Invariants and whole runs -/

/-- Rule R33: the invariants hold at reset. The spec's own decision D13 is behind it (log entry 17). -/
def Obligations.InvariantsAtReset : Prop := State.reset.Inv

/-- Rule R33: every step keeps the invariants, whichever agent takes it: the queue within its capacity, the worker
blocked only in `Idle` or `Stopped`, a response latched exactly in `Responding`, the drain count in range, no lost
wake-up, and nothing held once stopped. The spec's own decisions D4 and D14 are behind it (log entries 11 and 18). -/
def Obligations.EveryStepKeepsTheInvariants : Prop :=
  ∀ s t : State, s.Inv → step s = .next t → t.Inv

/-- Rule R215: the block has no fault and refuses nothing: every state has a next state, on every turn. -/
def Obligations.EveryStepHasANextState : Prop :=
  ∀ s : State, ∃ t, step s = .next t

/-- Rule R90: the state machine moves only along its transitions, and by reset. The spec's own decisions D6, D7 and
D15 are behind it (log entries 13, 14 and 18). -/
def Obligations.PhaseMovesAlongItsTransitions : Prop :=
  ∀ s t : State, s.Inv → step s = .next t →
    (t.phase, t.wsub) = (s.phase, s.wsub) ∨ ((s.phase, s.wsub), (t.phase, t.wsub)) ∈ transitions ∨
    (s.nextTurn = .reset ∧ t.phase = .idle ∧ t.wsub = .none)

/-- Rules R51, R26, R86: the transmit stream changes only by reset and by a whole latched response appended to it. The
spec's own decision D16 is behind it (log entry 19). -/
def Obligations.TransmitStreamGrowsByWholeResponses : Prop :=
  ∀ s t : State, step s = .next t → s.nextTurn ≠ .reset →
    t.tx = s.tx ∨ (s.nextTurn = .txReady ∧ s.phase = .responding ∧ t.tx = s.tx ++ s.resp)

/-- Rules R18, R19, R50: the queue is first-in first-out: a step leaves it, appends the received byte, or takes its
head; only the worker's exit and reset empty it otherwise. -/
def Obligations.QueueIsFirstInFirstOut : Prop :=
  ∀ s t : State, step s = .next t →
    t.q = s.q ∨ (∃ b, s.nextTurn = .rxByte b ∧ t.q = s.q ++ [b]) ∨
    (s.nextTurn = .worker ∧ ∃ b, s.q = b :: t.q) ∨
    (t.q = [] ∧ (s.nextTurn = .reset ∨ (s.nextTurn = .worker ∧ s.wk = .blocked ∧ s.stop = true)))

/-- Rules R47, R52, R105: a handler with a draw is called once at the decode of its own READ frame, and at no other
step. The spec's own decision D9 is behind it (log entry 16). -/
def Obligations.HandlersAreCalledAtTheirOwnReadAlone : Prop :=
  ∀ s t : State, step s = .next t →
    (s.nextTurn = .worker ∧ s.phase = .dispatching ∧ s.wsub = .none ∧ s.hdr0 = 0xC8#8 ∧ s.hdr1 = 0#8 ∧
      t.oracles.adcCalls = s.oracles.adcCalls + 1 ∧ t.oracles.rateCalls = s.oracles.rateCalls) ∨
    (s.nextTurn = .worker ∧ s.phase = .dispatching ∧ s.wsub = .none ∧ s.hdr0 = 0xC8#8 ∧ s.hdr1 = 3#8 ∧
      t.oracles.rateCalls = s.oracles.rateCalls + 1 ∧ t.oracles.adcCalls = s.oracles.adcCalls) ∨
    (t.oracles = s.oracles ∧
      ¬ (s.nextTurn = .worker ∧ s.phase = .dispatching ∧ s.wsub = .none ∧ s.hdr0 = 0xC8#8 ∧
        (s.hdr1 = 0#8 ∨ s.hdr1 = 3#8)))

/-- Rules R23, R24 and `93_implementation_defined.md` U15: the latches that are don't-cares where they stand are not
read: two states that differ in them alone step to states that differ in them alone. So no claim rests on the value
they have after reset (log entry 1). -/
def Obligations.DontCareLatchesAreNotRead : Prop :=
  ∀ s s' t : State, s.masked = s'.masked → step s = .next t → ∃ t', step s' = .next t' ∧ t.masked = t'.masked

/-- Rule R94: under the invariants no worker step is enabled exactly at rest; `Stopped` apart, nothing is then queued,
raised or latched. The spec's own decisions D4 and D14 are behind it (log entries 11 and 18). -/
def Obligations.NoWorkerStepExactlyAtRest : Prop :=
  ∀ s : State, s.Inv → (nextWorkerStep s = none ↔ s.AtRest)

/-- Rule R59, its second half: from a clean entry, with no byte dropped and no expiry, stop or reset, what stands on
the transmit stream is what the frame rules give for the received bytes, up to what is still to be done; and all of it
once nothing is left to do. The spec's own decisions D1, D5, D7 and D8 are behind it (log entries 9, 12, 14 and 15).
-/
def Obligations.FrameRulesGiveTheTransmitStream : Prop :=
  ∀ (n : Nat) (s t : State), s.CleanEntry → n ≤ s.turns.length →
    noStop (s.turns.take n) = true → noReset (s.turns.take n) = true → noExpiry (s.turns.take n) = true →
    s.NoDrop n → runSteps n s = .next t →
    (t.tx <+: s.tx ++ serveBytes Config.hw .idle s.oracles (rxBytes (s.turns.take n))) ∧
    (t.Drained → t.tx = s.tx ++ serveBytes Config.hw .idle s.oracles (rxBytes (s.turns.take n)))

/-- Rule R59, its first half: schedule independence. Two runs from clean entries with the same received bytes and the
same oracle answers, however their steps interleave, end with the same transmit stream once both have nothing left to
do. The spec's own decisions D4 and D5 are behind it (log entries 11 and 12). -/
def Obligations.TransmitStreamDoesNotDependOnTheSchedule : Prop :=
  ∀ (n m : Nat) (s s' t t' : State), s.CleanEntry → s'.CleanEntry → s.tx = s'.tx → s.oracles = s'.oracles →
    n ≤ s.turns.length → m ≤ s'.turns.length →
    noStop (s.turns.take n) = true → noReset (s.turns.take n) = true → noExpiry (s.turns.take n) = true →
    noStop (s'.turns.take m) = true → noReset (s'.turns.take m) = true → noExpiry (s'.turns.take m) = true →
    rxBytes (s.turns.take n) = rxBytes (s'.turns.take m) → s.NoDrop n → s'.NoDrop m →
    runSteps n s = .next t → runSteps m s' = .next t' → t.Drained → t'.Drained → t.tx = t'.tx

/-- Rules R136, R214: a run from a clean entry that receives at most 258 bytes drops none, for every capacity that
rule R6 allows. The spec's own decision D2 is behind it (log entry 4). -/
def Obligations.OneFramesWorthOfBytesIsNeverDropped : Prop :=
  ∀ (n : Nat) (s : State), s.CleanEntry → n ≤ s.turns.length → (rxBytes (s.turns.take n)).length ≤ 258 → s.NoDrop n

/-- Rules R136, R214: under `OneOutstanding` and `WholeFrames`, with the bytes received as sent, no byte is dropped,
for every capacity that rule R6 allows, because the queue never holds more than one frame: what it holds is a part of
one request's frame, at most 258 bytes. The requests may be for other devices too: `OwnAddressOnly` is not needed.
That the capacity is at least 258 is the spec's own decision D2 (log entry 4); how the premises read on a run is in
log entry 32. -/
def Obligations.NoDropFollowsFromOneOutstanding : Prop :=
  ∀ (xs : List Exchange) (s : State) (ts : List Turn), s.CleanEntry → s.turns = exchangeTurns xs ++ ts →
    (∀ x ∈ xs, WholeFrames [x.request] x.sent) → (∀ x ∈ xs, InOrderBytes x.sent x.turns) → s.OneOutstanding xs →
    s.NoDrop (exchangeTurns xs).length ∧
    ∀ (n : Nat) (t : State), n ≤ (exchangeTurns xs).length → runSteps n s = .next t →
      t.q.length ≤ 258 ∧ (t.q = [] ∨ ∃ x ∈ xs, t.q <:+: x.request.bytes)

/-- Rules R122, R44, R204 (b): with `ExpiryInSilence` besides, every request ends with the block at a frame boundary:
an empty queue and `Idle` (or `Stopped`), so that the next byte is taken as an address byte, whatever expiries fell
inside the frames, whichever headers and lengths the frames have and whichever devices they are for. That an expiry
gives the frame up is the spec's own decision D6 (log entry 13); how the premises read on a run is in log entry 32. -/
def Obligations.EveryExchangeEndsAtAFrameBoundary : Prop :=
  ∀ (xs : List Exchange) (s : State) (ts : List Turn), s.CleanEntry → s.turns = exchangeTurns xs ++ ts →
    (∀ x ∈ xs, WholeFrames [x.request] x.sent) → (∀ x ∈ xs, InOrderBytes x.sent x.turns) → s.OneOutstanding xs →
    s.ExpiryInSilence xs →
    ∀ t, runSteps (exchangeTurns xs).length s = .next t → t.q = [] ∧ (t.phase = .idle ∨ t.phase = .stopped)

/-- Rules R93, R54: under a fair schedule in which nothing arrives, every state that meets the invariants and has no
`Stop` raised is drained within a bound given by the queue's length: no byte is left behind a lost wake-up. The spec's
own decisions D4, D5 and D16 are behind it (log entries 11, 12 and 19). -/
def Obligations.FairTurnsDrainTheQueue : Prop :=
  ∀ (n : Nat) (s : State) (ts : List Turn), s.Inv → s.stop = false → s.turns = fairTurns n ++ ts →
    3 * s.q.length + 4 ≤ n → ∃ t, runSteps (2 * n) s = .next t ∧ t.Drained ∧ t.turns = ts

/-! ### The host's client -/

/-- Rules R133, R135, R40: the host's status poll on the bytes this block latches for it is true, and false on any
other two bytes. The spec's own decision D1 is behind it (log entry 9). -/
def Obligations.StatusPollIsTrueOnTheTokenAlone : Prop :=
  (∀ s t : State, exec .rdStatus s = .next t → (readStatus Config.hw ⟨false, t.resp⟩).result = .ok true) ∧
  (∀ (a b : Byte) (rest : List Byte), ¬ (a = 0x4F#8 ∧ b = 0x4B#8) →
    (readStatus Config.hw ⟨false, a :: b :: rest⟩).result = .ok false) ∧
  ∀ link, (readStatus Config.hw link).sent = [0xC8#8, 0x02#8]

/-- Rules R133, R139: a read of one or two bytes sends the frame and assembles the value most significant byte first,
leaving surplus bytes in the input; with too few it is a `Timeout`, with a failed transport a `LinkError`. The spec's
own decision D1 is behind it (log entries 9 and 25). That the frame counts as sent where the transport fails, and that
a failed transport is reported before a lack of bytes, is the model's choice (log entry 25). -/
def Obligations.ReadRegisterAssemblesOrFails : Prop :=
  ∀ (reg a b : Byte) (rest : List Byte) (w : Nat) (link : Link),
    (readRegister Config.hw link reg w).sent = [0xC8#8, reg] ∧
    (readRegister Config.hw ⟨false, a :: rest⟩ reg 1).result = .ok (a.toNat, rest) ∧
    (readRegister Config.hw ⟨false, a :: b :: rest⟩ reg 2).result = .ok (a.toNat * 256 + b.toNat, rest) ∧
    (link.failed = true → (readRegister Config.hw link reg w).result = .error .linkError) ∧
    (link.failed = false → link.input.length < w → (readRegister Config.hw link reg w).result = .error .timeout)

/-- Rules R134, R131: a write of at most 255 bytes succeeds exactly on a status byte of 0; a longer one sends nothing. -/
def Obligations.WriteRegisterSucceedsOnStatusZero : Prop :=
  ∀ (reg b : Byte) (payload rest : List Byte),
    (payload.length ≤ 255 →
      (writeRegister ⟨false, b :: rest⟩ reg payload).sent = 0x48#8 :: reg :: BitVec.ofNat 8 payload.length :: payload ∧
      (writeRegister ⟨false, b :: rest⟩ reg payload).result = .ok (decide (b = 0#8), rest)) ∧
    (255 < payload.length →
      (writeRegister ⟨false, b :: rest⟩ reg payload).sent = [] ∧
      (writeRegister ⟨false, b :: rest⟩ reg payload).result = .error .payloadTooLarge)
end

