-- ==== Sys2Proof/Laws/Decode.lean ====
section
/-! SUPPORT. Small facts about the frame encodings, one per function: the address bytes, the fields of an address
byte, and the decoder on its shapes. -/

namespace Sys2Proof

@[simp] theorem hw_peerAddr : Config.hw.peerAddr = 0x48#7 := rfl

@[simp] theorem hw_statusToken : Config.hw.statusToken = 0x4F4B#16 := rfl

@[simp] theorem hw_respMsbFirst : Config.hw.respMsbFirst = true := rfl

theorem hw_qcap : Config.hw.qcap = Config.extraCapacity + 258 := rfl

/-- All that can be known of the capacity (rule R6). -/
theorem qcap_ge : 258 ≤ Config.hw.qcap := by rw [hw_qcap]; omega

@[simp] theorem hw_rdAddrByte : Config.hw.rdAddrByte = 0xC8#8 := by decide

@[simp] theorem hw_wrAddrByte : Config.hw.wrAddrByte = 0x48#8 := by decide

@[simp] theorem decodeHeader_read (a r : Byte) : (decodeHeader a r).read = a[7] := rfl

@[simp] theorem decodeHeader_peer (a r : Byte) : (decodeHeader a r).peer = a.extractLsb' 0 7 := rfl

@[simp] theorem decodeHeader_reg (a r : Byte) : (decodeHeader a r).reg = r := rfl

/-- The read flag of an assembled address byte is the one put in (rule R61). -/
@[simp] theorem addressByte_read (rw : Bool) (peer : Peer) : (addressByte rw peer)[7] = rw := by
  revert rw peer; decide

/-- The device address of an assembled address byte is the one put in (rule R61). -/
@[simp] theorem addressByte_peer (rw : Bool) (peer : Peer) : (addressByte rw peer).extractLsb' 0 7 = peer := by
  revert rw peer; decide

/-- An address byte is assembled from its own two fields (rule R61). -/
theorem addressByte_fields (a : Byte) : addressByte (a[7]) (a.extractLsb' 0 7) = a := by
  revert a; decide

/-- The header decode recovers the fields that an address byte and a register byte were made of. -/
theorem decodeHeader_addressByte (rw : Bool) (peer : Peer) (reg : Byte) :
    decodeHeader (addressByte rw peer) reg = ⟨rw, peer, reg⟩ := by
  simp [decodeHeader]

@[simp] theorem decode_two (a r : Byte) (rest : List Byte) :
    decode (a :: r :: rest) = .ok (decodeInstr a r, rest) := rfl

@[simp] theorem decodeInstr_read (r : Byte) :
    decodeInstr 0xC8#8 r = if r = 0#8 then .rdAdc else if r = 1#8 then .rdBtn else if r = 2#8 then .rdStatus
      else if r = 3#8 then .rdRate else .rdUnmapped r := rfl

@[simp] theorem decodeInstr_write (r : Byte) : decodeInstr 0x48#8 r = .wr r := rfl

/-- A header for another device address is an `IGN` (rule R67). -/
theorem decodeInstr_foreign {a : Byte} (h : a.extractLsb' 0 7 ≠ 0x48#7) (r : Byte) :
    decodeInstr a r = .ign (a[7]) (a.extractLsb' 0 7) r := by
  simp [decodeInstr, Header.instr, h]

/-- An address byte with this block's device address is one of two values (rule R61). -/
theorem own_addressByte {a : Byte} (h : a.extractLsb' 0 7 = 0x48#7) : a = 0xC8#8 ∨ a = 0x48#8 := by
  revert a; decide

end Sys2Proof
end

