-- ==== Sys2Proof/Laws/Operands.lean ====
section
/-! SUPPORT. What the operand forms answer: the byte order, the two oracles, the register dispatcher. -/

namespace Sys2Proof.Machine

@[simp] theorem linkOrder_true (v : Half) : linkOrder true v = [hi8 v, lo8 v] := rfl

@[simp] theorem linkOrder_false (v : Half) : linkOrder false v = [lo8 v, hi8 v] := rfl

@[simp] theorem linkOrder_length (m : Bool) (v : Half) : (linkOrder m v).length = 2 := by cases m <;> rfl

/-- The two bytes of a value make up the value. -/
theorem hi8_lo8 (v : Half) : (hi8 v).toNat * 256 + (lo8 v).toNat = v.toNat := by
  have h := v.isLt
  simp only [hi8, lo8, BitVec.extractLsb'_toNat, Nat.shiftRight_eq_div_pow]
  omega

@[simp] theorem hi8_token : hi8 0x4F4B#16 = 0x4F#8 := by decide

@[simp] theorem lo8_token : lo8 0x4F4B#16 = 0x4B#8 := by decide

@[simp] theorem adcRead_calls (ch : Nat) (o : Oracles) : (adcRead ch o).2.adcCalls = o.adcCalls + 1 := by
  unfold adcRead; split <;> rfl

@[simp] theorem adcRead_rateCalls (ch : Nat) (o : Oracles) : (adcRead ch o).2.rateCalls = o.rateCalls := by
  unfold adcRead; split <;> rfl

@[simp] theorem adcRead_rateAnswers (ch : Nat) (o : Oracles) : (adcRead ch o).2.rateAnswers = o.rateAnswers := by
  unfold adcRead; split <;> rfl

@[simp] theorem adcRead_adcAnswers (ch : Nat) (o : Oracles) :
    (adcRead ch o).2.adcAnswers = o.adcAnswers.tail := by
  unfold adcRead; split <;> simp_all

/-- A fixed answer is the one the call gives. -/
theorem adcRead_fixed {o : Oracles} {v : Half} {rest : List Half} (h : o.adcAnswers = v :: rest) (ch : Nat) :
    (adcRead ch o).1 = v := by
  simp [adcRead, h]

@[simp] theorem rateEstimate_calls (o : Oracles) : (rateEstimate o).2.rateCalls = o.rateCalls + 1 := by
  unfold rateEstimate; split <;> rfl

@[simp] theorem rateEstimate_adcCalls (o : Oracles) : (rateEstimate o).2.adcCalls = o.adcCalls := by
  unfold rateEstimate; split <;> rfl

@[simp] theorem rateEstimate_adcAnswers (o : Oracles) : (rateEstimate o).2.adcAnswers = o.adcAnswers := by
  unfold rateEstimate; split <;> rfl

@[simp] theorem rateEstimate_rateAnswers (o : Oracles) :
    (rateEstimate o).2.rateAnswers = o.rateAnswers.tail := by
  unfold rateEstimate; split <;> simp_all

/-- A fixed answer is the one the call gives. -/
theorem rateEstimate_fixed {o : Oracles} {v : Half} {rest : List Half} (h : o.rateAnswers = v :: rest) :
    (rateEstimate o).1 = v := by
  simp [rateEstimate, h]

@[simp] theorem regRead_adc (c : Config) (o : Oracles) :
    regRead c .adcReading o = (linkOrder c.respMsbFirst (adcRead c.adcChannel o).1, (adcRead c.adcChannel o).2) := rfl

@[simp] theorem regRead_button (c : Config) (o : Oracles) :
    regRead c .buttonMask o = ([c.btnPlaceholder], o) := rfl

@[simp] theorem regRead_status (c : Config) (o : Oracles) :
    regRead c .statusToken o = (linkOrder c.respMsbFirst c.statusToken, o) := rfl

@[simp] theorem regRead_rate (c : Config) (o : Oracles) :
    regRead c .sampleRateEstimate o = (linkOrder c.respMsbFirst (rateEstimate o).1, (rateEstimate o).2) := rfl

/-- A register's value is one or two bytes, never none (rules R25, R100). -/
theorem regRead_length (c : Config) (k : Semantics) (o : Oracles) :
    (regRead c k o).1.length = 1 ∨ (regRead c k o).1.length = 2 := by
  cases k <;> simp

theorem regRead_ne_nil (c : Config) (k : Semantics) (o : Oracles) : (regRead c k o).1 ≠ [] := by
  intro h
  have := regRead_length c k o
  simp [h] at this

theorem regRead_length_le (c : Config) (k : Semantics) (o : Oracles) : (regRead c k o).1.length ≤ 2 := by
  rcases regRead_length c k o with h | h <;> omega

end Sys2Proof.Machine
end

