-- ==== Sys2Proof/Laws/State.lean ====
section
/-! SUPPORT. What each named update of the state leaves in each field: one lemma per field per update, true by
unfolding, so that no later proof unfolds a record update. -/

namespace Sys2Proof.Machine

/-! ### `State.raiseDataReady` -/

@[simp] theorem State.raiseDataReady_q (s : State) : s.raiseDataReady.q = s.q := rfl
@[simp] theorem State.raiseDataReady_stop (s : State) : s.raiseDataReady.stop = s.stop := rfl
@[simp] theorem State.raiseDataReady_dataReady (s : State) : s.raiseDataReady.dataReady = true := rfl
@[simp] theorem State.raiseDataReady_phase (s : State) : s.raiseDataReady.phase = s.phase := rfl
@[simp] theorem State.raiseDataReady_wk (s : State) : s.raiseDataReady.wk = s.wk := rfl
@[simp] theorem State.raiseDataReady_hdr0 (s : State) : s.raiseDataReady.hdr0 = s.hdr0 := rfl
@[simp] theorem State.raiseDataReady_hdr1 (s : State) : s.raiseDataReady.hdr1 = s.hdr1 := rfl
@[simp] theorem State.raiseDataReady_wsub (s : State) : s.raiseDataReady.wsub = s.wsub := rfl
@[simp] theorem State.raiseDataReady_drainCnt (s : State) : s.raiseDataReady.drainCnt = s.drainCnt := rfl
@[simp] theorem State.raiseDataReady_resp (s : State) : s.raiseDataReady.resp = s.resp := rfl
@[simp] theorem State.raiseDataReady_tx (s : State) : s.raiseDataReady.tx = s.tx := rfl
@[simp] theorem State.raiseDataReady_turns (s : State) : s.raiseDataReady.turns = s.turns := rfl
@[simp] theorem State.raiseDataReady_turnCount (s : State) : s.raiseDataReady.turnCount = s.turnCount := rfl
@[simp] theorem State.raiseDataReady_oracles (s : State) : s.raiseDataReady.oracles = s.oracles := rfl

/-! ### `State.clearDataReady` -/

@[simp] theorem State.clearDataReady_q (s : State) : s.clearDataReady.q = s.q := rfl
@[simp] theorem State.clearDataReady_stop (s : State) : s.clearDataReady.stop = s.stop := rfl
@[simp] theorem State.clearDataReady_dataReady (s : State) : s.clearDataReady.dataReady = false := rfl
@[simp] theorem State.clearDataReady_phase (s : State) : s.clearDataReady.phase = s.phase := rfl
@[simp] theorem State.clearDataReady_wk (s : State) : s.clearDataReady.wk = s.wk := rfl
@[simp] theorem State.clearDataReady_hdr0 (s : State) : s.clearDataReady.hdr0 = s.hdr0 := rfl
@[simp] theorem State.clearDataReady_hdr1 (s : State) : s.clearDataReady.hdr1 = s.hdr1 := rfl
@[simp] theorem State.clearDataReady_wsub (s : State) : s.clearDataReady.wsub = s.wsub := rfl
@[simp] theorem State.clearDataReady_drainCnt (s : State) : s.clearDataReady.drainCnt = s.drainCnt := rfl
@[simp] theorem State.clearDataReady_resp (s : State) : s.clearDataReady.resp = s.resp := rfl
@[simp] theorem State.clearDataReady_tx (s : State) : s.clearDataReady.tx = s.tx := rfl
@[simp] theorem State.clearDataReady_turns (s : State) : s.clearDataReady.turns = s.turns := rfl
@[simp] theorem State.clearDataReady_turnCount (s : State) : s.clearDataReady.turnCount = s.turnCount := rfl
@[simp] theorem State.clearDataReady_oracles (s : State) : s.clearDataReady.oracles = s.oracles := rfl

/-! ### `State.raiseStop` -/

@[simp] theorem State.raiseStop_q (s : State) : s.raiseStop.q = s.q := rfl
@[simp] theorem State.raiseStop_stop (s : State) : s.raiseStop.stop = true := rfl
@[simp] theorem State.raiseStop_dataReady (s : State) : s.raiseStop.dataReady = s.dataReady := rfl
@[simp] theorem State.raiseStop_phase (s : State) : s.raiseStop.phase = s.phase := rfl
@[simp] theorem State.raiseStop_wk (s : State) : s.raiseStop.wk = s.wk := rfl
@[simp] theorem State.raiseStop_hdr0 (s : State) : s.raiseStop.hdr0 = s.hdr0 := rfl
@[simp] theorem State.raiseStop_hdr1 (s : State) : s.raiseStop.hdr1 = s.hdr1 := rfl
@[simp] theorem State.raiseStop_wsub (s : State) : s.raiseStop.wsub = s.wsub := rfl
@[simp] theorem State.raiseStop_drainCnt (s : State) : s.raiseStop.drainCnt = s.drainCnt := rfl
@[simp] theorem State.raiseStop_resp (s : State) : s.raiseStop.resp = s.resp := rfl
@[simp] theorem State.raiseStop_tx (s : State) : s.raiseStop.tx = s.tx := rfl
@[simp] theorem State.raiseStop_turns (s : State) : s.raiseStop.turns = s.turns := rfl
@[simp] theorem State.raiseStop_turnCount (s : State) : s.raiseStop.turnCount = s.turnCount := rfl
@[simp] theorem State.raiseStop_oracles (s : State) : s.raiseStop.oracles = s.oracles := rfl

/-! ### `State.clearFlags` -/

@[simp] theorem State.clearFlags_q (s : State) : s.clearFlags.q = s.q := rfl
@[simp] theorem State.clearFlags_stop (s : State) : s.clearFlags.stop = false := rfl
@[simp] theorem State.clearFlags_dataReady (s : State) : s.clearFlags.dataReady = false := rfl
@[simp] theorem State.clearFlags_phase (s : State) : s.clearFlags.phase = s.phase := rfl
@[simp] theorem State.clearFlags_wk (s : State) : s.clearFlags.wk = s.wk := rfl
@[simp] theorem State.clearFlags_hdr0 (s : State) : s.clearFlags.hdr0 = s.hdr0 := rfl
@[simp] theorem State.clearFlags_hdr1 (s : State) : s.clearFlags.hdr1 = s.hdr1 := rfl
@[simp] theorem State.clearFlags_wsub (s : State) : s.clearFlags.wsub = s.wsub := rfl
@[simp] theorem State.clearFlags_drainCnt (s : State) : s.clearFlags.drainCnt = s.drainCnt := rfl
@[simp] theorem State.clearFlags_resp (s : State) : s.clearFlags.resp = s.resp := rfl
@[simp] theorem State.clearFlags_tx (s : State) : s.clearFlags.tx = s.tx := rfl
@[simp] theorem State.clearFlags_turns (s : State) : s.clearFlags.turns = s.turns := rfl
@[simp] theorem State.clearFlags_turnCount (s : State) : s.clearFlags.turnCount = s.turnCount := rfl
@[simp] theorem State.clearFlags_oracles (s : State) : s.clearFlags.oracles = s.oracles := rfl

/-! ### `State.abandon` -/

@[simp] theorem State.abandon_q (c : Cause) (s : State) : (s.abandon c).q = s.q := rfl
@[simp] theorem State.abandon_stop (c : Cause) (s : State) : (s.abandon c).stop = s.stop := rfl
@[simp] theorem State.abandon_dataReady (c : Cause) (s : State) : (s.abandon c).dataReady = s.dataReady := rfl
@[simp] theorem State.abandon_phase (c : Cause) (s : State) : (s.abandon c).phase = .idle := rfl
@[simp] theorem State.abandon_wk (c : Cause) (s : State) : (s.abandon c).wk = s.wk := rfl
@[simp] theorem State.abandon_hdr0 (c : Cause) (s : State) : (s.abandon c).hdr0 = s.hdr0 := rfl
@[simp] theorem State.abandon_hdr1 (c : Cause) (s : State) : (s.abandon c).hdr1 = s.hdr1 := rfl
@[simp] theorem State.abandon_wsub (c : Cause) (s : State) : (s.abandon c).wsub = .none := rfl
@[simp] theorem State.abandon_drainCnt (c : Cause) (s : State) : (s.abandon c).drainCnt = s.drainCnt := rfl
@[simp] theorem State.abandon_resp (c : Cause) (s : State) : (s.abandon c).resp = s.resp := rfl
@[simp] theorem State.abandon_tx (c : Cause) (s : State) : (s.abandon c).tx = s.tx := rfl
@[simp] theorem State.abandon_turns (c : Cause) (s : State) : (s.abandon c).turns = s.turns := rfl
@[simp] theorem State.abandon_turnCount (c : Cause) (s : State) : (s.abandon c).turnCount = s.turnCount := rfl
@[simp] theorem State.abandon_oracles (c : Cause) (s : State) : (s.abandon c).oracles = s.oracles := rfl

/-! ### `State.latchResponse` -/

@[simp] theorem State.latchResponse_q (r : List Byte) (s : State) : (s.latchResponse r).q = s.q := rfl
@[simp] theorem State.latchResponse_stop (r : List Byte) (s : State) : (s.latchResponse r).stop = s.stop := rfl
@[simp] theorem State.latchResponse_dataReady (r : List Byte) (s : State) : (s.latchResponse r).dataReady = s.dataReady := rfl
@[simp] theorem State.latchResponse_phase (r : List Byte) (s : State) : (s.latchResponse r).phase = .responding := rfl
@[simp] theorem State.latchResponse_wk (r : List Byte) (s : State) : (s.latchResponse r).wk = s.wk := rfl
@[simp] theorem State.latchResponse_hdr0 (r : List Byte) (s : State) : (s.latchResponse r).hdr0 = s.hdr0 := rfl
@[simp] theorem State.latchResponse_hdr1 (r : List Byte) (s : State) : (s.latchResponse r).hdr1 = s.hdr1 := rfl
@[simp] theorem State.latchResponse_wsub (r : List Byte) (s : State) : (s.latchResponse r).wsub = s.wsub := rfl
@[simp] theorem State.latchResponse_drainCnt (r : List Byte) (s : State) : (s.latchResponse r).drainCnt = s.drainCnt := rfl
@[simp] theorem State.latchResponse_resp (r : List Byte) (s : State) : (s.latchResponse r).resp = r := rfl
@[simp] theorem State.latchResponse_tx (r : List Byte) (s : State) : (s.latchResponse r).tx = s.tx := rfl
@[simp] theorem State.latchResponse_turns (r : List Byte) (s : State) : (s.latchResponse r).turns = s.turns := rfl
@[simp] theorem State.latchResponse_turnCount (r : List Byte) (s : State) : (s.latchResponse r).turnCount = s.turnCount := rfl
@[simp] theorem State.latchResponse_oracles (r : List Byte) (s : State) : (s.latchResponse r).oracles = s.oracles := rfl

/-! ### `State.serveRead` -/

@[simp] theorem State.serveRead_q (c : Config) (k : Semantics) (s : State) : (s.serveRead c k).q = s.q := rfl
@[simp] theorem State.serveRead_stop (c : Config) (k : Semantics) (s : State) : (s.serveRead c k).stop = s.stop := rfl
@[simp] theorem State.serveRead_dataReady (c : Config) (k : Semantics) (s : State) : (s.serveRead c k).dataReady = s.dataReady := rfl
@[simp] theorem State.serveRead_phase (c : Config) (k : Semantics) (s : State) : (s.serveRead c k).phase = .responding := rfl
@[simp] theorem State.serveRead_wk (c : Config) (k : Semantics) (s : State) : (s.serveRead c k).wk = s.wk := rfl
@[simp] theorem State.serveRead_hdr0 (c : Config) (k : Semantics) (s : State) : (s.serveRead c k).hdr0 = s.hdr0 := rfl
@[simp] theorem State.serveRead_hdr1 (c : Config) (k : Semantics) (s : State) : (s.serveRead c k).hdr1 = s.hdr1 := rfl
@[simp] theorem State.serveRead_wsub (c : Config) (k : Semantics) (s : State) : (s.serveRead c k).wsub = s.wsub := rfl
@[simp] theorem State.serveRead_drainCnt (c : Config) (k : Semantics) (s : State) : (s.serveRead c k).drainCnt = s.drainCnt := rfl
@[simp] theorem State.serveRead_resp (c : Config) (k : Semantics) (s : State) : (s.serveRead c k).resp = (regRead c k s.oracles).1 := rfl
@[simp] theorem State.serveRead_tx (c : Config) (k : Semantics) (s : State) : (s.serveRead c k).tx = s.tx := rfl
@[simp] theorem State.serveRead_turns (c : Config) (k : Semantics) (s : State) : (s.serveRead c k).turns = s.turns := rfl
@[simp] theorem State.serveRead_turnCount (c : Config) (k : Semantics) (s : State) : (s.serveRead c k).turnCount = s.turnCount := rfl
@[simp] theorem State.serveRead_oracles (c : Config) (k : Semantics) (s : State) : (s.serveRead c k).oracles = (regRead c k s.oracles).2 := rfl

/-! ### `State.awaitLength` -/

@[simp] theorem State.awaitLength_q (s : State) : s.awaitLength.q = s.q := rfl
@[simp] theorem State.awaitLength_stop (s : State) : s.awaitLength.stop = s.stop := rfl
@[simp] theorem State.awaitLength_dataReady (s : State) : s.awaitLength.dataReady = s.dataReady := rfl
@[simp] theorem State.awaitLength_phase (s : State) : s.awaitLength.phase = s.phase := rfl
@[simp] theorem State.awaitLength_wk (s : State) : s.awaitLength.wk = s.wk := rfl
@[simp] theorem State.awaitLength_hdr0 (s : State) : s.awaitLength.hdr0 = s.hdr0 := rfl
@[simp] theorem State.awaitLength_hdr1 (s : State) : s.awaitLength.hdr1 = s.hdr1 := rfl
@[simp] theorem State.awaitLength_wsub (s : State) : s.awaitLength.wsub = .awaitLen := rfl
@[simp] theorem State.awaitLength_drainCnt (s : State) : s.awaitLength.drainCnt = s.drainCnt := rfl
@[simp] theorem State.awaitLength_resp (s : State) : s.awaitLength.resp = s.resp := rfl
@[simp] theorem State.awaitLength_tx (s : State) : s.awaitLength.tx = s.tx := rfl
@[simp] theorem State.awaitLength_turns (s : State) : s.awaitLength.turns = s.turns := rfl
@[simp] theorem State.awaitLength_turnCount (s : State) : s.awaitLength.turnCount = s.turnCount := rfl
@[simp] theorem State.awaitLength_oracles (s : State) : s.awaitLength.oracles = s.oracles := rfl

/-! ### `State.txWrite` -/

@[simp] theorem State.txWrite_q (r : List Byte) (s : State) : (s.txWrite r).q = s.q := rfl
@[simp] theorem State.txWrite_stop (r : List Byte) (s : State) : (s.txWrite r).stop = s.stop := rfl
@[simp] theorem State.txWrite_dataReady (r : List Byte) (s : State) : (s.txWrite r).dataReady = s.dataReady := rfl
@[simp] theorem State.txWrite_phase (r : List Byte) (s : State) : (s.txWrite r).phase = s.phase := rfl
@[simp] theorem State.txWrite_wk (r : List Byte) (s : State) : (s.txWrite r).wk = s.wk := rfl
@[simp] theorem State.txWrite_hdr0 (r : List Byte) (s : State) : (s.txWrite r).hdr0 = s.hdr0 := rfl
@[simp] theorem State.txWrite_hdr1 (r : List Byte) (s : State) : (s.txWrite r).hdr1 = s.hdr1 := rfl
@[simp] theorem State.txWrite_wsub (r : List Byte) (s : State) : (s.txWrite r).wsub = s.wsub := rfl
@[simp] theorem State.txWrite_drainCnt (r : List Byte) (s : State) : (s.txWrite r).drainCnt = s.drainCnt := rfl
@[simp] theorem State.txWrite_resp (r : List Byte) (s : State) : (s.txWrite r).resp = s.resp := rfl
@[simp] theorem State.txWrite_tx (r : List Byte) (s : State) : (s.txWrite r).tx = s.tx ++ r := rfl
@[simp] theorem State.txWrite_turns (r : List Byte) (s : State) : (s.txWrite r).turns = s.turns := rfl
@[simp] theorem State.txWrite_turnCount (r : List Byte) (s : State) : (s.txWrite r).turnCount = s.turnCount := rfl
@[simp] theorem State.txWrite_oracles (r : List Byte) (s : State) : (s.txWrite r).oracles = s.oracles := rfl

/-! ### `State.resetBlock` -/

@[simp] theorem State.resetBlock_q (s : State) : s.resetBlock.q = [] := rfl
@[simp] theorem State.resetBlock_stop (s : State) : s.resetBlock.stop = false := rfl
@[simp] theorem State.resetBlock_dataReady (s : State) : s.resetBlock.dataReady = false := rfl
@[simp] theorem State.resetBlock_phase (s : State) : s.resetBlock.phase = .idle := rfl
@[simp] theorem State.resetBlock_wk (s : State) : s.resetBlock.wk = .blocked := rfl
@[simp] theorem State.resetBlock_hdr0 (s : State) : s.resetBlock.hdr0 = 0#8 := rfl
@[simp] theorem State.resetBlock_hdr1 (s : State) : s.resetBlock.hdr1 = 0#8 := rfl
@[simp] theorem State.resetBlock_wsub (s : State) : s.resetBlock.wsub = .none := rfl
@[simp] theorem State.resetBlock_drainCnt (s : State) : s.resetBlock.drainCnt = 0#8 := rfl
@[simp] theorem State.resetBlock_resp (s : State) : s.resetBlock.resp = [] := rfl
@[simp] theorem State.resetBlock_tx (s : State) : s.resetBlock.tx = [] := rfl
@[simp] theorem State.resetBlock_turns (s : State) : s.resetBlock.turns = s.turns := rfl
@[simp] theorem State.resetBlock_turnCount (s : State) : s.resetBlock.turnCount = s.turnCount := rfl
@[simp] theorem State.resetBlock_oracles (s : State) : s.resetBlock.oracles = s.oracles := rfl

/-! ### `State.advanceTurn` -/

@[simp] theorem State.advanceTurn_q (s : State) : s.advanceTurn.q = s.q := rfl
@[simp] theorem State.advanceTurn_stop (s : State) : s.advanceTurn.stop = s.stop := rfl
@[simp] theorem State.advanceTurn_dataReady (s : State) : s.advanceTurn.dataReady = s.dataReady := rfl
@[simp] theorem State.advanceTurn_phase (s : State) : s.advanceTurn.phase = s.phase := rfl
@[simp] theorem State.advanceTurn_wk (s : State) : s.advanceTurn.wk = s.wk := rfl
@[simp] theorem State.advanceTurn_hdr0 (s : State) : s.advanceTurn.hdr0 = s.hdr0 := rfl
@[simp] theorem State.advanceTurn_hdr1 (s : State) : s.advanceTurn.hdr1 = s.hdr1 := rfl
@[simp] theorem State.advanceTurn_wsub (s : State) : s.advanceTurn.wsub = s.wsub := rfl
@[simp] theorem State.advanceTurn_drainCnt (s : State) : s.advanceTurn.drainCnt = s.drainCnt := rfl
@[simp] theorem State.advanceTurn_resp (s : State) : s.advanceTurn.resp = s.resp := rfl
@[simp] theorem State.advanceTurn_tx (s : State) : s.advanceTurn.tx = s.tx := rfl
@[simp] theorem State.advanceTurn_turns (s : State) : s.advanceTurn.turns = s.turns.tail := rfl
@[simp] theorem State.advanceTurn_turnCount (s : State) : s.advanceTurn.turnCount = s.turnCount + 1 := rfl
@[simp] theorem State.advanceTurn_oracles (s : State) : s.advanceTurn.oracles = s.oracles := rfl

/-! ### `State.placeHeader` -/

@[simp] theorem State.placeHeader_q (a r : Byte) (s : State) : (s.placeHeader a r).q = s.q := rfl
@[simp] theorem State.placeHeader_stop (a r : Byte) (s : State) : (s.placeHeader a r).stop = s.stop := rfl
@[simp] theorem State.placeHeader_dataReady (a r : Byte) (s : State) : (s.placeHeader a r).dataReady = s.dataReady := rfl
@[simp] theorem State.placeHeader_phase (a r : Byte) (s : State) : (s.placeHeader a r).phase = .dispatching := rfl
@[simp] theorem State.placeHeader_wk (a r : Byte) (s : State) : (s.placeHeader a r).wk = .running := rfl
@[simp] theorem State.placeHeader_hdr0 (a r : Byte) (s : State) : (s.placeHeader a r).hdr0 = a := rfl
@[simp] theorem State.placeHeader_hdr1 (a r : Byte) (s : State) : (s.placeHeader a r).hdr1 = r := rfl
@[simp] theorem State.placeHeader_wsub (a r : Byte) (s : State) : (s.placeHeader a r).wsub = .none := rfl
@[simp] theorem State.placeHeader_drainCnt (a r : Byte) (s : State) : (s.placeHeader a r).drainCnt = s.drainCnt := rfl
@[simp] theorem State.placeHeader_resp (a r : Byte) (s : State) : (s.placeHeader a r).resp = s.resp := rfl
@[simp] theorem State.placeHeader_tx (a r : Byte) (s : State) : (s.placeHeader a r).tx = s.tx := rfl
@[simp] theorem State.placeHeader_turns (a r : Byte) (s : State) : (s.placeHeader a r).turns = Turn.worker :: s.turns := rfl
@[simp] theorem State.placeHeader_turnCount (a r : Byte) (s : State) : (s.placeHeader a r).turnCount = s.turnCount := rfl
@[simp] theorem State.placeHeader_oracles (a r : Byte) (s : State) : (s.placeHeader a r).oracles = s.oracles := rfl

/-! ### `wWake` -/

@[simp] theorem wWake_q (s : State) : (wWake s).q = s.q := rfl
@[simp] theorem wWake_stop (s : State) : (wWake s).stop = s.stop := rfl
@[simp] theorem wWake_dataReady (s : State) : (wWake s).dataReady = false := rfl
@[simp] theorem wWake_phase (s : State) : (wWake s).phase = s.phase := rfl
@[simp] theorem wWake_wk (s : State) : (wWake s).wk = .running := rfl
@[simp] theorem wWake_hdr0 (s : State) : (wWake s).hdr0 = s.hdr0 := rfl
@[simp] theorem wWake_hdr1 (s : State) : (wWake s).hdr1 = s.hdr1 := rfl
@[simp] theorem wWake_wsub (s : State) : (wWake s).wsub = s.wsub := rfl
@[simp] theorem wWake_drainCnt (s : State) : (wWake s).drainCnt = s.drainCnt := rfl
@[simp] theorem wWake_resp (s : State) : (wWake s).resp = s.resp := rfl
@[simp] theorem wWake_tx (s : State) : (wWake s).tx = s.tx := rfl
@[simp] theorem wWake_turns (s : State) : (wWake s).turns = s.turns := rfl
@[simp] theorem wWake_turnCount (s : State) : (wWake s).turnCount = s.turnCount := rfl
@[simp] theorem wWake_oracles (s : State) : (wWake s).oracles = s.oracles := rfl

/-! ### `wStop` -/

@[simp] theorem wStop_q (s : State) : (wStop s).q = [] := rfl
@[simp] theorem wStop_stop (s : State) : (wStop s).stop = false := rfl
@[simp] theorem wStop_dataReady (s : State) : (wStop s).dataReady = false := rfl
@[simp] theorem wStop_phase (s : State) : (wStop s).phase = .stopped := rfl
@[simp] theorem wStop_wk (s : State) : (wStop s).wk = .blocked := rfl
@[simp] theorem wStop_hdr0 (s : State) : (wStop s).hdr0 = s.hdr0 := rfl
@[simp] theorem wStop_hdr1 (s : State) : (wStop s).hdr1 = s.hdr1 := rfl
@[simp] theorem wStop_wsub (s : State) : (wStop s).wsub = .none := rfl
@[simp] theorem wStop_drainCnt (s : State) : (wStop s).drainCnt = s.drainCnt := rfl
@[simp] theorem wStop_resp (s : State) : (wStop s).resp = [] := rfl
@[simp] theorem wStop_tx (s : State) : (wStop s).tx = s.tx := rfl
@[simp] theorem wStop_turns (s : State) : (wStop s).turns = s.turns := rfl
@[simp] theorem wStop_turnCount (s : State) : (wStop s).turnCount = s.turnCount := rfl
@[simp] theorem wStop_oracles (s : State) : (wStop s).oracles = s.oracles := rfl

/-! ### `wTx` -/

@[simp] theorem wTx_q (s : State) : (wTx s).q = s.q := rfl
@[simp] theorem wTx_stop (s : State) : (wTx s).stop = s.stop := rfl
@[simp] theorem wTx_dataReady (s : State) : (wTx s).dataReady = s.dataReady := rfl
@[simp] theorem wTx_phase (s : State) : (wTx s).phase = .idle := rfl
@[simp] theorem wTx_wk (s : State) : (wTx s).wk = s.wk := rfl
@[simp] theorem wTx_hdr0 (s : State) : (wTx s).hdr0 = s.hdr0 := rfl
@[simp] theorem wTx_hdr1 (s : State) : (wTx s).hdr1 = s.hdr1 := rfl
@[simp] theorem wTx_wsub (s : State) : (wTx s).wsub = s.wsub := rfl
@[simp] theorem wTx_drainCnt (s : State) : (wTx s).drainCnt = s.drainCnt := rfl
@[simp] theorem wTx_resp (s : State) : (wTx s).resp = [] := rfl
@[simp] theorem wTx_tx (s : State) : (wTx s).tx = s.tx ++ s.resp := rfl
@[simp] theorem wTx_turns (s : State) : (wTx s).turns = s.turns := rfl
@[simp] theorem wTx_turnCount (s : State) : (wTx s).turnCount = s.turnCount := rfl
@[simp] theorem wTx_oracles (s : State) : (wTx s).oracles = s.oracles := rfl

/-! ### `wSleep` -/

@[simp] theorem wSleep_q (s : State) : (wSleep s).q = s.q := rfl
@[simp] theorem wSleep_stop (s : State) : (wSleep s).stop = s.stop := rfl
@[simp] theorem wSleep_dataReady (s : State) : (wSleep s).dataReady = s.dataReady := rfl
@[simp] theorem wSleep_phase (s : State) : (wSleep s).phase = s.phase := rfl
@[simp] theorem wSleep_wk (s : State) : (wSleep s).wk = .blocked := rfl
@[simp] theorem wSleep_hdr0 (s : State) : (wSleep s).hdr0 = s.hdr0 := rfl
@[simp] theorem wSleep_hdr1 (s : State) : (wSleep s).hdr1 = s.hdr1 := rfl
@[simp] theorem wSleep_wsub (s : State) : (wSleep s).wsub = s.wsub := rfl
@[simp] theorem wSleep_drainCnt (s : State) : (wSleep s).drainCnt = s.drainCnt := rfl
@[simp] theorem wSleep_resp (s : State) : (wSleep s).resp = s.resp := rfl
@[simp] theorem wSleep_tx (s : State) : (wSleep s).tx = s.tx := rfl
@[simp] theorem wSleep_turns (s : State) : (wSleep s).turns = s.turns := rfl
@[simp] theorem wSleep_turnCount (s : State) : (wSleep s).turnCount = s.turnCount := rfl
@[simp] theorem wSleep_oracles (s : State) : (wSleep s).oracles = s.oracles := rfl

/-! ### `wExpire` -/

@[simp] theorem wExpire_q (s : State) : (wExpire s).q = s.q := rfl
@[simp] theorem wExpire_stop (s : State) : (wExpire s).stop = s.stop := rfl
@[simp] theorem wExpire_dataReady (s : State) : (wExpire s).dataReady = s.dataReady := rfl
@[simp] theorem wExpire_phase (s : State) : (wExpire s).phase = .idle := rfl
@[simp] theorem wExpire_wk (s : State) : (wExpire s).wk = s.wk := rfl
@[simp] theorem wExpire_hdr0 (s : State) : (wExpire s).hdr0 = s.hdr0 := rfl
@[simp] theorem wExpire_hdr1 (s : State) : (wExpire s).hdr1 = s.hdr1 := rfl
@[simp] theorem wExpire_wsub (s : State) : (wExpire s).wsub = .none := rfl
@[simp] theorem wExpire_drainCnt (s : State) : (wExpire s).drainCnt = s.drainCnt := rfl
@[simp] theorem wExpire_resp (s : State) : (wExpire s).resp = s.resp := rfl
@[simp] theorem wExpire_tx (s : State) : (wExpire s).tx = s.tx := rfl
@[simp] theorem wExpire_turns (s : State) : (wExpire s).turns = s.turns := rfl
@[simp] theorem wExpire_turnCount (s : State) : (wExpire s).turnCount = s.turnCount := rfl
@[simp] theorem wExpire_oracles (s : State) : (wExpire s).oracles = s.oracles := rfl

end Sys2Proof.Machine
end

