-- ==== Sys2Proof/Laws/Exec.lean ====
section
/-! SUPPORT. What the dispatch of an operation can do, said once: every operation answers a next state, and in one of
three ways. -/

namespace Sys2Proof.Machine

/-- The state an operation leaves: a response is latched, the length byte of a write is awaited, or the frame is given
up. -/
theorem exec_cases (i : Instr) (s : State) :
    (∃ k, exec i s = .next (s.serveRead Config.hw k) ∧ i.isServedRead = true ∧ i.isWrite = false ∧
      answer Config.hw i s.oracles = regRead Config.hw k s.oracles) ∨
    (exec i s = .next s.awaitLength ∧ i.isServedRead = false ∧ i.isWrite = true ∧
      answer Config.hw i s.oracles = ([], s.oracles)) ∨
    (∃ c, exec i s = .next (s.abandon c) ∧ i.isServedRead = false ∧ i.isWrite = false ∧
      answer Config.hw i s.oracles = ([], s.oracles)) := by
  cases i
  case rdAdc => exact .inl ⟨.adcReading, rfl, rfl, rfl, rfl⟩
  case rdBtn => exact .inl ⟨.buttonMask, rfl, rfl, rfl, rfl⟩
  case rdStatus => exact .inl ⟨.statusToken, rfl, rfl, rfl, rfl⟩
  case rdRate => exact .inl ⟨.sampleRateEstimate, rfl, rfl, rfl, rfl⟩
  case rdUnmapped reg => exact .inr (.inr ⟨.unknownRegister, rfl, rfl, rfl, rfl⟩)
  case wr reg => exact .inr (.inl ⟨rfl, rfl, rfl, rfl⟩)
  case ign rw peer reg => exact .inr (.inr ⟨.addressMismatch, rfl, rfl, rfl, rfl⟩)

end Sys2Proof.Machine
end

