-- ==== Sys2Proof/Laws/Sequencer.lean ====
section
/-! SUPPORT. The worker's steps: which one a state offers, and what each can do. -/

namespace Sys2Proof.Machine

/-! ### Which step a state offers -/

/-- A step that is offered is enabled. -/
theorem enabled_of_next {s : State} {w : WorkerStep} (h : nextWorkerStep s = some w) : enabled w s = true := by
  unfold nextWorkerStep at h
  repeat' split at h
  all_goals first | (cases h; assumption) | cases h

/-- Where no step is offered, none is enabled. -/
theorem not_enabled_of_none {s : State} (h : nextWorkerStep s = none) (w : WorkerStep) : enabled w s = false := by
  unfold nextWorkerStep at h
  cases w <;> (repeat' split at h) <;> simp_all

theorem next_wPop_idle {s : State} (hw : s.wk = .running) (hp : s.phase = .idle) (hq : s.q ≠ []) :
    nextWorkerStep s = some .wPop := by
  simp [nextWorkerStep, enabled, hw, hp, hq]

theorem next_wPop_header {s : State} (hw : s.wk = .running) (hp : s.phase = .headerPartial) (hq : s.q ≠ []) :
    nextWorkerStep s = some .wPop := by
  simp [nextWorkerStep, enabled, State.busy, hw, hp, hq]

theorem next_wPop_write {s : State} (hw : s.wk = .running) (hp : s.phase = .dispatching)
    (hs : s.wsub ≠ .none) (hq : s.q ≠ []) : nextWorkerStep s = some .wPop := by
  cases h : s.wsub <;> simp_all [nextWorkerStep, enabled, State.busy]

theorem next_wDecode {s : State} (hp : s.phase = .dispatching) (hs : s.wsub = .none) :
    nextWorkerStep s = some .wDecode := by
  simp [nextWorkerStep, enabled, State.busy, hp, hs]

theorem next_wTx {s : State} (hp : s.phase = .responding) : nextWorkerStep s = some .wTx := by
  simp [nextWorkerStep, enabled, State.busy, hp]

theorem next_wSleep {s : State} (hw : s.wk = .running) (hp : s.phase = .idle) (hq : s.q = []) :
    nextWorkerStep s = some .wSleep := by
  simp [nextWorkerStep, enabled, State.busy, hw, hp, hq]

theorem next_wExpire {s : State} (hw : s.wk = .running) (hb : s.busy = true) (hq : s.q = []) :
    nextWorkerStep s = some .wExpire := by
  have hp : s.phase = .headerPartial ∨ (s.phase = .dispatching ∧ s.wsub ≠ .none) := by
    cases h : s.phase <;> cases h' : s.wsub <;> simp_all [State.busy]
  rcases hp with hp | ⟨hp, hs⟩ <;> simp_all [nextWorkerStep, enabled]

theorem next_wStop {s : State} (hw : s.wk = .blocked) (hp : s.phase = .idle) (hs : s.stop = true) :
    nextWorkerStep s = some .wStop := by
  simp [nextWorkerStep, enabled, hw, hp, hs]

theorem next_wWake {s : State} (hw : s.wk = .blocked) (hp : s.phase = .idle) (hs : s.stop = false)
    (hd : s.dataReady = true) : nextWorkerStep s = some .wWake := by
  simp [nextWorkerStep, enabled, hw, hp, hs, hd]

theorem next_stopped {s : State} (hp : s.phase = .stopped) : nextWorkerStep s = none := by
  simp [nextWorkerStep, enabled, State.busy, hp]

theorem next_asleep {s : State} (hw : s.wk = .blocked) (hp : s.phase = .idle) (hs : s.stop = false)
    (hd : s.dataReady = false) : nextWorkerStep s = none := by
  simp [nextWorkerStep, enabled, State.busy, hw, hp, hs, hd]

/-! ### Taking a byte -/

/-- `W-POP` at a queue with a head takes the head into the frame. -/
theorem wPop_cons {s : State} {b : Byte} {rest : List Byte} (h : s.q = b :: rest) :
    wPop s = takeByte b { s with q := rest } := by
  simp [wPop, h]

/-- What taking a byte can do (rule R84). -/
theorem takeByte_cases (b : Byte) (s : State) :
    (s.phase = .idle ∧ takeByte b s = { s with hdr0 := b, phase := .headerPartial }) ∨
    (s.phase = .headerPartial ∧ takeByte b s = { s with hdr1 := b, phase := .dispatching, wsub := .none }) ∨
    (s.phase = .dispatching ∧ s.wsub = .awaitLen ∧ b = 0#8 ∧
      takeByte b s = { s with phase := .idle, wsub := .none }) ∨
    (s.phase = .dispatching ∧ s.wsub = .awaitLen ∧ b ≠ 0#8 ∧
      takeByte b s = { s with drainCnt := b, wsub := .drain }) ∨
    (s.phase = .dispatching ∧ s.wsub = .drain ∧ s.drainCnt - 1#8 = 0#8 ∧
      takeByte b s = { s with drainCnt := 0#8, phase := .idle, wsub := .none }) ∨
    (s.phase = .dispatching ∧ s.wsub = .drain ∧ s.drainCnt - 1#8 ≠ 0#8 ∧
      takeByte b s = { s with drainCnt := s.drainCnt - 1#8 }) ∨
    ((s.phase = .dispatching ∧ s.wsub = .none ∨ s.phase = .responding ∨ s.phase = .stopped) ∧ takeByte b s = s) := by
  unfold takeByte
  split <;> simp_all
  all_goals exact Decidable.em _

/-! ### The other agents' steps -/

/-- What the handler's step can do (rule R152). -/
theorem iPush_cases (n : Nat) (b : Byte) (s : State) :
    (s.phase = .stopped ∧ iPush n b s = s) ∨
    (s.phase ≠ .stopped ∧ s.q.length < n ∧ iPush n b s = { s with q := s.q ++ [b], dataReady := true }) ∨
    (s.phase ≠ .stopped ∧ ¬ s.q.length < n ∧ iPush n b s = { s with dataReady := true }) := by
  unfold iPush queuePush State.raiseDataReady
  split
  · exact .inl ⟨‹_›, rfl⟩
  · split
    · exact .inr (.inl ⟨‹_›, ‹_›, rfl⟩)
    · exact .inr (.inr ⟨‹_›, ‹_›, rfl⟩)

/-- What raising `Stop` can do (rule R155). -/
theorem sRaise_cases (s : State) :
    (s.phase = .stopped ∧ sRaise s = s) ∨ (s.phase ≠ .stopped ∧ sRaise s = { s with stop := true }) := by
  unfold sRaise State.raiseStop
  split
  · exact .inl ⟨‹_›, rfl⟩
  · exact .inr ⟨‹_›, rfl⟩

end Sys2Proof.Machine
end

