-- ==== Sys2Proof/Laws/Step.lean ====
section
/-! SUPPORT. What one step can do, said once, and how a run is taken apart. -/

namespace Sys2Proof.Machine

theorem nextTurn_cons {s : State} {t : Turn} {ts : List Turn} (h : s.turns = t :: ts) : s.nextTurn = t := by
  simp [State.nextTurn, h]

@[simp] theorem enabled_advanceTurn (w : WorkerStep) (s : State) : enabled w s.advanceTurn = enabled w s := rfl

@[simp] theorem nextWorkerStep_advanceTurn (s : State) : nextWorkerStep s.advanceTurn = nextWorkerStep s := rfl

@[simp] theorem busy_advanceTurn (s : State) : s.advanceTurn.busy = s.busy := rfl

/-- A turn that lets the offered worker step be taken takes it. -/
theorem workerTurn_taken {t : Turn} {s : State} {w : WorkerStep} (hw : nextWorkerStep s = some w)
    (hg : grants t w = true) : workerTurn t s = runWorkerStep w s := by
  simp [workerTurn, hw, hg]

/-- A turn that does not let the offered worker step be taken changes nothing. -/
theorem workerTurn_waits {t : Turn} {s : State} {w : WorkerStep} (hw : nextWorkerStep s = some w)
    (hg : grants t w = false) : workerTurn t s = .next s := by
  simp [workerTurn, hw, hg]

theorem workerTurn_none {t : Turn} {s : State} (hw : nextWorkerStep s = none) : workerTurn t s = .next s := by
  simp [workerTurn, hw]

/-- Everything one step can do: the handler's step, the raising of `Stop`, reset, a worker step that is enabled and
granted by the turn, or nothing but the passing of the turn. -/
theorem step_cases (s : State) :
    (∃ b, s.nextTurn = .rxByte b ∧ step s = .next (iPush Config.hw.qcap b s.advanceTurn)) ∨
    (s.nextTurn = .stopReq ∧ step s = .next (sRaise s.advanceTurn)) ∨
    (s.nextTurn = .reset ∧ step s = .next s.advanceTurn.resetBlock) ∨
    (∃ w, nextWorkerStep s = some w ∧ enabled w s = true ∧ grants s.nextTurn w = true ∧
      step s = runWorkerStep w s.advanceTurn) ∨
    ((s.nextTurn = .worker ∨ s.nextTurn = .txReady ∨ s.nextTurn = .underfillExpired) ∧
      (∀ w, nextWorkerStep s = some w → grants s.nextTurn w = false) ∧ step s = .next s.advanceTurn) := by
  have key : ∀ t, s.nextTurn = t → (t = .worker ∨ t = .txReady ∨ t = .underfillExpired) →
      step s = workerTurn t s.advanceTurn →
      (∃ w, nextWorkerStep s = some w ∧ enabled w s = true ∧ grants t w = true ∧
        step s = runWorkerStep w s.advanceTurn) ∨
      ((t = .worker ∨ t = .txReady ∨ t = .underfillExpired) ∧
        (∀ w, nextWorkerStep s = some w → grants t w = false) ∧ step s = .next s.advanceTurn) := by
    intro t _ ht hs
    cases hw : nextWorkerStep s with
    | none => exact .inr ⟨ht, by simp, hs.trans (workerTurn_none (by simpa using hw))⟩
    | some w =>
      cases hg : grants t w with
      | true =>
        exact .inl ⟨w, rfl, enabled_of_next hw, hg, hs.trans (workerTurn_taken (by simpa using hw) hg)⟩
      | false =>
        refine .inr ⟨ht, ?_, hs.trans (workerTurn_waits (by simpa using hw) hg)⟩
        intro w' h'
        cases h'
        exact hg
  cases h : s.nextTurn with
  | rxByte b => exact .inl ⟨b, rfl, by simp [step, runTurn, h]⟩
  | stopReq => exact .inr (.inl ⟨rfl, by simp [step, runTurn, h]⟩)
  | reset => exact .inr (.inr (.inl ⟨rfl, by simp [step, runTurn, h]⟩))
  | worker => exact .inr (.inr (.inr (key _ h (by simp) (by simp [step, runTurn, h]))))
  | txReady => exact .inr (.inr (.inr (key _ h (by simp) (by simp [step, runTurn, h]))))
  | underfillExpired => exact .inr (.inr (.inr (key _ h (by simp) (by simp [step, runTurn, h]))))

/-- A worker step offered and granted is the step. -/
theorem step_worker {s : State} {w : WorkerStep} (hw : nextWorkerStep s = some w)
    (hg : grants s.nextTurn w = true) : step s = runWorkerStep w s.advanceTurn := by
  have h := workerTurn_taken (t := s.nextTurn) (s := s.advanceTurn) (by simpa using hw) hg
  cases ht : s.nextTurn <;> simp_all [step, runTurn, grants]
  all_goals cases w <;> simp_all

/-! ### The effect of a step -/

/-- Every worker step answers a next state. -/
theorem runWorkerStep_next (w : WorkerStep) (s : State) : ∃ t, runWorkerStep w s = .next t := by
  cases w
  case wDecode =>
    rcases exec_cases (decodeInstr s.hdr0 s.hdr1) s with ⟨k, h, -⟩ | ⟨h, -⟩ | ⟨c, h, -⟩ <;> exact ⟨_, h⟩
  all_goals exact ⟨_, rfl⟩

/-- Where `busy` holds: a header half taken, or a write being drained (rule R81). -/
theorem busy_iff (s : State) :
    s.busy = true ↔ s.phase = .headerPartial ∨ (s.phase = .dispatching ∧ s.wsub ≠ .none) := by
  cases hs : s.wsub <;> simp [State.busy, hs]

/-- What the state is like where each worker step is enabled (rule R81). -/
theorem enabled_iff (w : WorkerStep) (s : State) : enabled w s = true ↔
    match w with
    | .wStop => s.wk = .blocked ∧ s.phase = .idle ∧ s.stop = true
    | .wWake => s.wk = .blocked ∧ s.phase = .idle ∧ s.stop = false ∧ s.dataReady = true
    | .wPop => s.wk = .running ∧ s.q ≠ [] ∧
        (s.phase = .idle ∨ s.phase = .headerPartial ∨ (s.phase = .dispatching ∧ s.wsub ≠ .none))
    | .wDecode => s.phase = .dispatching ∧ s.wsub = .none
    | .wTx => s.phase = .responding
    | .wSleep => s.wk = .running ∧ s.q = [] ∧ s.phase = .idle
    | .wExpire => s.wk = .running ∧ s.q = [] ∧
        (s.phase = .headerPartial ∨ (s.phase = .dispatching ∧ s.wsub ≠ .none)) := by
  cases w <;> simp [enabled, busy_iff, and_assoc]

/-- The effect of one step, by cases: the turn, the condition on the state, and the state after it, in full. -/
inductive StepEffect (s : State) : State → Prop where
  /-- `I-PUSH` with room in the queue. -/
  | push (b : Byte) (turn : s.nextTurn = .rxByte b) (live : s.phase ≠ .stopped)
      (room : s.q.length < Config.hw.qcap) : StepEffect s { s.advanceTurn with q := s.q ++ [b], dataReady := true }
  /-- `I-PUSH` at a full queue. -/
  | drop (b : Byte) (turn : s.nextTurn = .rxByte b) (live : s.phase ≠ .stopped)
      (full : ¬ s.q.length < Config.hw.qcap) : StepEffect s { s.advanceTurn with dataReady := true }
  /-- `I-PUSH` once stopped. -/
  | discard (b : Byte) (turn : s.nextTurn = .rxByte b) (dead : s.phase = .stopped) : StepEffect s s.advanceTurn
  /-- `S-RAISE`. -/
  | raise (turn : s.nextTurn = .stopReq) (live : s.phase ≠ .stopped) :
      StepEffect s { s.advanceTurn with stop := true }
  /-- `S-RAISE` once stopped. -/
  | raiseDead (turn : s.nextTurn = .stopReq) (dead : s.phase = .stopped) : StepEffect s s.advanceTurn
  /-- `RESET`. -/
  | reset (turn : s.nextTurn = .reset) : StepEffect s s.advanceTurn.resetBlock
  /-- A turn of the worker on which nothing it could do is enabled. -/
  | wait (turn : s.nextTurn = .worker ∨ s.nextTurn = .txReady ∨ s.nextTurn = .underfillExpired)
      (waits : ∀ w, nextWorkerStep s = some w → grants s.nextTurn w = false) : StepEffect s s.advanceTurn
  /-- `W-STOP`. -/
  | stop (turn : s.nextTurn = .worker) (next : nextWorkerStep s = some .wStop) (blocked : s.wk = .blocked)
      (idle : s.phase = .idle) (raised : s.stop = true) : StepEffect s (wStop s.advanceTurn)
  /-- `W-WAKE`. -/
  | wake (turn : s.nextTurn = .worker) (next : nextWorkerStep s = some .wWake) (blocked : s.wk = .blocked)
      (idle : s.phase = .idle) (clear : s.stop = false) (raised : s.dataReady = true) :
      StepEffect s (wWake s.advanceTurn)
  /-- `W-POP` of an address byte. -/
  | popIdle (b : Byte) (rest : List Byte) (turn : s.nextTurn = .worker) (queue : s.q = b :: rest)
      (running : s.wk = .running) (at_ : s.phase = .idle) :
      StepEffect s { s.advanceTurn with q := rest, hdr0 := b, phase := .headerPartial }
  /-- `W-POP` of a register byte. -/
  | popHeader (b : Byte) (rest : List Byte) (turn : s.nextTurn = .worker) (queue : s.q = b :: rest)
      (running : s.wk = .running) (at_ : s.phase = .headerPartial) :
      StepEffect s { s.advanceTurn with q := rest, hdr1 := b, phase := .dispatching, wsub := .none }
  /-- `W-POP` of a length byte 0. -/
  | popLengthZero (rest : List Byte) (turn : s.nextTurn = .worker) (queue : s.q = 0#8 :: rest)
      (running : s.wk = .running) (at_ : s.phase = .dispatching) (sub : s.wsub = .awaitLen) :
      StepEffect s { s.advanceTurn with q := rest, phase := .idle, wsub := .none }
  /-- `W-POP` of a length byte other than 0. -/
  | popLength (b : Byte) (rest : List Byte) (turn : s.nextTurn = .worker) (queue : s.q = b :: rest) (ne : b ≠ 0#8)
      (running : s.wk = .running) (at_ : s.phase = .dispatching) (sub : s.wsub = .awaitLen) :
      StepEffect s { s.advanceTurn with q := rest, drainCnt := b, wsub := .drain }
  /-- `W-POP` of the last payload byte. -/
  | popLast (b : Byte) (rest : List Byte) (turn : s.nextTurn = .worker) (queue : s.q = b :: rest)
      (running : s.wk = .running) (at_ : s.phase = .dispatching) (sub : s.wsub = .drain)
      (last : s.drainCnt - 1#8 = 0#8) :
      StepEffect s { s.advanceTurn with q := rest, drainCnt := 0#8, phase := .idle, wsub := .none }
  /-- `W-POP` of a payload byte that is not the last. -/
  | popPayload (b : Byte) (rest : List Byte) (turn : s.nextTurn = .worker) (queue : s.q = b :: rest)
      (running : s.wk = .running) (at_ : s.phase = .dispatching) (sub : s.wsub = .drain)
      (more : s.drainCnt - 1#8 ≠ 0#8) :
      StepEffect s { s.advanceTurn with q := rest, drainCnt := s.drainCnt - 1#8 }
  /-- `W-DECODE` of a served READ. -/
  | decodeRead (k : Semantics) (turn : s.nextTurn = .worker) (at_ : s.phase = .dispatching) (sub : s.wsub = .none)
      (served : (decodeInstr s.hdr0 s.hdr1).isServedRead = true)
      (write : (decodeInstr s.hdr0 s.hdr1).isWrite = false)
      (value : answer Config.hw (decodeInstr s.hdr0 s.hdr1) s.oracles = regRead Config.hw k s.oracles) :
      StepEffect s (s.advanceTurn.serveRead Config.hw k)
  /-- `W-DECODE` of a WRITE to this device. -/
  | decodeWrite (turn : s.nextTurn = .worker) (at_ : s.phase = .dispatching) (sub : s.wsub = .none)
      (served : (decodeInstr s.hdr0 s.hdr1).isServedRead = false)
      (write : (decodeInstr s.hdr0 s.hdr1).isWrite = true)
      (value : answer Config.hw (decodeInstr s.hdr0 s.hdr1) s.oracles = ([], s.oracles)) :
      StepEffect s s.advanceTurn.awaitLength
  /-- `W-DECODE` of a header that is given up. -/
  | decodeAbandon (c : Cause) (turn : s.nextTurn = .worker) (at_ : s.phase = .dispatching) (sub : s.wsub = .none)
      (served : (decodeInstr s.hdr0 s.hdr1).isServedRead = false)
      (write : (decodeInstr s.hdr0 s.hdr1).isWrite = false)
      (value : answer Config.hw (decodeInstr s.hdr0 s.hdr1) s.oracles = ([], s.oracles)) :
      StepEffect s (s.advanceTurn.abandon c)
  /-- `W-TX`. -/
  | transmit (turn : s.nextTurn = .txReady) (at_ : s.phase = .responding) : StepEffect s (wTx s.advanceTurn)
  /-- `W-SLEEP`. -/
  | sleep (turn : s.nextTurn = .worker) (running : s.wk = .running) (queue : s.q = []) (at_ : s.phase = .idle) :
      StepEffect s (wSleep s.advanceTurn)
  /-- `W-EXPIRE`. -/
  | expire (turn : s.nextTurn = .underfillExpired) (running : s.wk = .running) (queue : s.q = [])
      (at_ : s.phase = .headerPartial ∨ (s.phase = .dispatching ∧ s.wsub ≠ .none)) :
      StepEffect s (wExpire s.advanceTurn)

/-- The effect of a pop that is enabled. -/
theorem wPop_effect {s : State} (turn : s.nextTurn = .worker) (he : enabled .wPop s = true) :
    StepEffect s (wPop s.advanceTurn) := by
  obtain ⟨hw, hq, hp⟩ := (enabled_iff .wPop s).1 he
  obtain ⟨b, rest, hq⟩ := List.exists_cons_of_ne_nil hq
  rw [wPop_cons (s := s.advanceTurn) hq]
  rcases takeByte_cases b { s.advanceTurn with q := rest } with
    ⟨hp', e⟩ | ⟨hp', e⟩ | ⟨hp', hs, hb, e⟩ | ⟨hp', hs, hb, e⟩ | ⟨hp', hs, hb, e⟩ | ⟨hp', hs, hb, e⟩ | ⟨hp', e⟩ <;> rw [e]
  · exact .popIdle b rest turn hq hw hp'
  · exact .popHeader b rest turn hq hw hp'
  · subst hb; exact .popLengthZero rest turn hq hw hp' hs
  · exact .popLength b rest turn hq hb hw hp' hs
  · exact .popLast b rest turn hq hw hp' hs hb
  · exact .popPayload b rest turn hq hw hp' hs hb
  · exfalso
    simp at hp'
    rcases hp with hp | hp | ⟨hp, hs⟩ <;> simp_all

/-- The effect of a decode that is enabled. -/
theorem wDecode_effect {s t : State} (turn : s.nextTurn = .worker) (he : enabled .wDecode s = true)
    (h : exec (decodeInstr s.hdr0 s.hdr1) s.advanceTurn = .next t) : StepEffect s t := by
  obtain ⟨hp, hs⟩ := (enabled_iff .wDecode s).1 he
  rcases exec_cases (decodeInstr s.hdr0 s.hdr1) s.advanceTurn with
    ⟨k, e, hr, hw, ha⟩ | ⟨e, hr, hw, ha⟩ | ⟨c, e, hr, hw, ha⟩ <;> cases e.symm.trans h
  · exact .decodeRead k turn hp hs hr hw ha
  · exact .decodeWrite turn hp hs hr hw ha
  · exact .decodeAbandon c turn hp hs hr hw ha

/-- A step that answers a next state had one of the effects listed. -/
theorem step_effect {s t : State} (h : step s = .next t) : StepEffect s t := by
  rcases step_cases s with ⟨b, ht, h'⟩ | ⟨ht, h'⟩ | ⟨ht, h'⟩ | ⟨w, hn, he, hg, h'⟩ | ⟨ht, hw, h'⟩
  · rcases iPush_cases Config.hw.qcap b s.advanceTurn with ⟨hp, e⟩ | ⟨hp, hl, e⟩ | ⟨hp, hl, e⟩ <;>
      rw [e] at h' <;> cases h'.symm.trans h
    · exact .discard b ht hp
    · exact .push b ht hp hl
    · exact .drop b ht hp hl
  · rcases sRaise_cases s.advanceTurn with ⟨hp, e⟩ | ⟨hp, e⟩ <;> rw [e] at h' <;> cases h'.symm.trans h
    · exact .raiseDead ht hp
    · exact .raise ht hp
  · cases h'.symm.trans h; exact .reset ht
  · have hf := (enabled_iff w s).1 he
    have hh := h'.symm.trans h
    cases w <;> simp only [grants, beq_iff_eq] at hg
    case wStop => cases hh; exact .stop hg hn hf.1 hf.2.1 hf.2.2
    case wWake => cases hh; exact .wake hg hn hf.1 hf.2.1 hf.2.2.1 hf.2.2.2
    case wPop => cases hh; exact wPop_effect hg he
    case wDecode => exact wDecode_effect hg he hh
    case wTx => cases hh; exact .transmit hg hf
    case wSleep => cases hh; exact .sleep hg hf.1 hf.2.1 hf.2.2
    case wExpire => cases hh; exact .expire hg hf.1 hf.2.1 hf.2.2
  · cases h'.symm.trans h; exact .wait ht hw

/-! ### Runs -/

@[simp] theorem runSteps_zero (s : State) : runSteps 0 s = .next s := rfl

theorem runSteps_succ (n : Nat) (s : State) :
    runSteps (n + 1) s = match step s with
      | .next t => runSteps n t
      | .fault r => .fault r
      | .refused r => .refused r := rfl

/-- A run whose first step is known goes on from there. -/
theorem runSteps_next {n : Nat} {s t : State} (h : step s = .next t) : runSteps (n + 1) s = runSteps n t := by
  rw [runSteps_succ, h]

/-- A run of `m + n` steps is one of `m` steps and one of `n` after it. -/
theorem runSteps_add {m n : Nat} {s t : State} (h : runSteps m s = .next t) : runSteps (m + n) s = runSteps n t := by
  induction m generalizing s with
  | zero =>
    rw [runSteps_zero] at h
    cases h
    rw [Nat.zero_add]
  | succ m ih =>
    rw [Nat.succ_add, Nat.succ_eq_add_one, runSteps_succ]
    rw [runSteps_succ] at h
    cases hs : step s with
    | next u => simp only [hs] at h ⊢; exact ih h
    | fault r => simp [hs] at h
    | refused r => simp [hs] at h

end Sys2Proof.Machine
end

