-- ==== Sys2Proof/Laws/Exchange.lean ====
section
/-! SUPPORT. The host's requests: their turns and bytes, and how a run of several requests is taken apart. -/

namespace Sys2Proof.Machine

@[simp] theorem rxBytes_append (a b : List Turn) : rxBytes (a ++ b) = rxBytes a ++ rxBytes b := by
  induction a with
  | nil => rfl
  | cons u a ih => cases u <;> simp [rxBytes, ih]

@[simp] theorem exchangeTurns_nil : exchangeTurns [] = [] := rfl

@[simp] theorem exchangeTurns_cons (x : Exchange) (xs : List Exchange) :
    exchangeTurns (x :: xs) = x.turns ++ exchangeTurns xs := rfl

@[simp] theorem Exchange.turns_length (x : Exchange) : x.turns.length = x.arrival.length + x.silence.length := by
  simp [Exchange.turns]

/-- One request sent whole. -/
@[simp] theorem wholeFrames_singleton (r : Request) (sent : List Byte) :
    WholeFrames [r] sent ↔ r.wellFormed = true ∧ sent = r.bytes := by
  simp [WholeFrames]

/-- A READ for this device has the bytes that `encode_read` gives (rules R75, R130). -/
theorem ownRead_bytes (r : Byte) : (Request.rdx Config.hw.peerAddr r).bytes = encodeRead r := rfl

/-- A WRITE for this device has the bytes of the frame as the block takes it (rules R64, R75). -/
theorem ownWrite_bytes (r : Byte) (payload : List Byte) :
    (Request.wrx Config.hw.peerAddr r payload).bytes = encodeFrame ⟨.wr r, payload⟩ := rfl

/-- The longest request has 258 bytes, whichever device it is for (rule R111). -/
theorem Request.bytes_length_le {r : Request} (h : r.wellFormed = true) : r.bytes.length ≤ 258 := by
  cases r with
  | rdx a r => simp [Request.bytes, encodeReadTo]
  | wrx a r payload =>
    simp only [Request.wellFormed, decide_eq_true_eq] at h
    simp only [Request.bytes, writeBytesTo, List.length_cons]
    omega

/-- A step takes the first fixed turn off the inputs, whichever agent steps. -/
theorem turns_of_step {s t : State} {u : Turn} {ts : List Turn} (h : s.turns = u :: ts) (hs : step s = .next t) :
    t.turns = ts := by
  cases step_effect hs <;> simp [h]

/-- A run takes as many turns as it has steps. -/
theorem turns_of_runSteps {l ts : List Turn} {s t : State} (h : s.turns = l ++ ts)
    (hr : runSteps l.length s = .next t) : t.turns = ts := by
  induction l generalizing s with
  | nil => cases hr; exact h
  | cons u l ih =>
    rw [List.length_cons, runSteps_succ] at hr
    cases hs : step s <;> simp only [hs, reduceCtorEq] at hr
    exact ih (turns_of_step h hs) hr

/-- No byte is dropped in a run of `m + n` steps if none is in its first `m` and none in the `n` after them. -/
theorem noDrop_append {m n : Nat} {s : State} (hm : s.NoDrop m) (hn : ∀ t, runSteps m s = .next t → t.NoDrop n) :
    s.NoDrop (m + n) := by
  induction m generalizing s with
  | zero => simpa using hn s rfl
  | succ m ih =>
    rw [Nat.succ_add]
    exact ⟨hm.1, fun t ht => ih (hm.2 t ht) fun v hv => hn v (by rw [runSteps_next ht]; exact hv)⟩

end Sys2Proof.Machine
end

