-- ==== Sys2Proof/Laws/PerInstr.lean ====
section
/-! SUPPORT. The per-instruction family `HeaderFields`: an operation's encoded header carries its fields, and the fields
alone decide the format and whether the operation is served (rules R60, R66, R67). -/

namespace Sys2Proof.Laws

/-- The header decode recovers the operation's fields from its two encoded bytes; the operation opens a `WR` frame
exactly for a clear read bit and this device's address, and is a served read exactly for a set read bit, this
device's address and a register address below 4. -/
def HeaderFields.Statement (i : Instr) : Prop :=
  i.wellFormed = true →
    decodeHeader (addressByte i.header.read i.header.peer) i.header.reg = i.header ∧
    i.isWrite = (!i.header.read && i.header.peer == Config.hw.peerAddr) ∧
    i.isServedRead = (i.header.read && i.header.peer == Config.hw.peerAddr && decide (i.header.reg.toNat < 4))

theorem HeaderFields.rdAdc : HeaderFields.Statement .rdAdc :=
  fun _ => ⟨decodeHeader_addressByte _ _ _, rfl, rfl⟩

theorem HeaderFields.rdBtn : HeaderFields.Statement .rdBtn :=
  fun _ => ⟨decodeHeader_addressByte _ _ _, rfl, rfl⟩

theorem HeaderFields.rdStatus : HeaderFields.Statement .rdStatus :=
  fun _ => ⟨decodeHeader_addressByte _ _ _, rfl, rfl⟩

theorem HeaderFields.rdRate : HeaderFields.Statement .rdRate :=
  fun _ => ⟨decodeHeader_addressByte _ _ _, rfl, rfl⟩

theorem HeaderFields.rdUnmapped (reg : Byte) : HeaderFields.Statement (.rdUnmapped reg) := by
  intro h
  refine ⟨decodeHeader_addressByte _ _ _, rfl, ?_⟩
  have h : 4 ≤ reg.toNat := by simpa [Instr.wellFormed] using h
  simp [Instr.isServedRead, Instr.header, Nat.not_lt.2 h]

theorem HeaderFields.wr (reg : Byte) : HeaderFields.Statement (.wr reg) :=
  fun _ => ⟨decodeHeader_addressByte _ _ _, rfl, rfl⟩

theorem HeaderFields.ign (read : Bool) (peer : Peer) (reg : Byte) : HeaderFields.Statement (.ign read peer reg) := by
  intro h
  refine ⟨decodeHeader_addressByte _ _ _, ?_, ?_⟩ <;>
    simp_all [Instr.isWrite, Instr.isServedRead, Instr.header, Instr.wellFormed]

end Sys2Proof.Laws
end

