-- ==== Sys2Proof/Tests/Slice0.lean ====
section
/-! SUPPORT. Tests on small states, each of one step or one function; the expected results are those of
`95_test_vectors.md` (vectors S, V) or are written out by hand from the rule named. Then, for every statement that
has hypotheses, a witness that meets them. -/

namespace Sys2Proof.Tests

open Sys2Proof.Machine

/-- Whether an outcome is a next state with a property. -/
def nextIs (o : Host.Outcome State Fault Refusal) (p : State → Bool) : Bool :=
  match o with
  | .next s => p s
  | .fault _ => false
  | .refused _ => false

/-- The reset state with these turns fixed. -/
def start (ts : List Turn) : State := { State.reset with turns := ts }

/-- A running worker in `Idle` with these bytes queued and these turns fixed. -/
def running (q : List Byte) (ts : List Turn) : State :=
  { State.reset with wk := .running, q := q, turns := ts }

/-- A running worker with a header latched and not yet decoded, its turn next. -/
def latched (a r : Byte) : State :=
  { running [] [.worker] with phase := .dispatching, hdr0 := a, hdr1 := r }

/-- A running worker inside a `WR` frame. -/
def writing (sub : Wsub) (n : Byte) (q : List Byte) (ts : List Turn) : State :=
  { running q ts with phase := .dispatching, wsub := sub, drainCnt := n, hdr0 := 0x48#8 }

/-- A running worker with a response latched. -/
def responding (bytes : List Byte) (ts : List Turn) : State :=
  { running [] ts with phase := .responding, resp := bytes }

/-- The block stopped. -/
def dead (ts : List Turn) : State := { State.reset with phase := .stopped, turns := ts }

/-! ### Well-formedness (rule R67): each check refuses an ill-formed term -/

theorem test_wellFormed_unmapped_lowest : (Instr.rdUnmapped 4#8).wellFormed = true := by decide

theorem test_illFormed_unmapped_of_a_register : (Instr.rdUnmapped 3#8).wellFormed = false := by decide

theorem test_wellFormed_foreign : (Instr.ign false 0x49#7 5#8).wellFormed = true := by decide

theorem test_illFormed_foreign_at_own_address : (Instr.ign true 0x48#7 2#8).wellFormed = false := by decide

theorem test_illFormed_frame_payload_on_a_read : Frame.wellFormed ⟨.rdAdc, [0#8]⟩ = false := by decide

theorem test_illFormed_frame_payload_too_long :
    Frame.wellFormed ⟨.wr 5#8, List.replicate 256 0#8⟩ = false := by decide +kernel

theorem test_illFormed_frame_of_illFormed_head : Frame.wellFormed ⟨.rdUnmapped 0#8, []⟩ = false := by decide

/-! ### Decoding (`95_test_vectors.md` section 2.1; words written out from rules R61 to R64) -/

theorem test_decode_rdAdc : decode [0b11001000#8, 0b00000000#8] = .ok (.rdAdc, []) := by decide

theorem test_decode_rdBtn : decode [0b11001000#8, 0b00000001#8] = .ok (.rdBtn, []) := by decide

theorem test_decode_rdStatus : decode [0b11001000#8, 0b00000010#8] = .ok (.rdStatus, []) := by decide

theorem test_decode_rdRate : decode [0b11001000#8, 0b00000011#8] = .ok (.rdRate, []) := by decide

theorem test_decode_rdUnmapped_lowest : decode [0b11001000#8, 0b00000100#8] = .ok (.rdUnmapped 4#8, []) := by decide

theorem test_decode_rdUnmapped_highest :
    decode [0b11001000#8, 0b11111111#8] = .ok (.rdUnmapped 0xFF#8, []) := by decide

theorem test_decode_wr : decode [0b01001000#8, 0b00000101#8] = .ok (.wr 5#8, []) := by decide

theorem test_decode_ign_one_above : decode [0b11001001#8, 0b00000010#8] = .ok (.ign true 0x49#7 2#8, []) := by decide

theorem test_decode_ign_one_below : decode [0b11000111#8, 0b00000010#8] = .ok (.ign true 0x47#7 2#8, []) := by decide

theorem test_decode_ign_shifted_layout :
    decode [0b10010001#8, 0b00000010#8] = .ok (.ign true 0x11#7 2#8, []) := by decide

theorem test_decode_rejects_one_byte : decode [0xC8#8] = .error .truncatedHeader := by decide

/-- S3: the source's write of `[255,0,0]` to register 5. -/
theorem test_encodeWrite_s3 :
    (encodeWrite 5#8 [0xFF#8, 0#8, 0#8]).toOption = some [0x48#8, 0x05#8, 0x03#8, 0xFF#8, 0x00#8, 0x00#8] := by
  decide

/-- S5: a payload of 256 bytes is refused. -/
theorem test_encodeWrite_s5 : (encodeWrite 5#8 (List.replicate 256 0#8)).toOption = none := by decide +kernel

/-- S1: `encode_read(2)`. -/
theorem test_encodeRead_s1 : encodeRead 2#8 = [0xC8#8, 0x02#8] := by decide

/-- A whole `WR` frame and the byte after it (V22). -/
theorem test_decodeFrame_v22 :
    (decodeFrame [0x48#8, 9#8, 0#8, 0xC8#8, 1#8]).toOption = some (⟨.wr 9#8, []⟩, [0xC8#8, 1#8]) := by decide

/-- A row of the table with a free low bit, at a word of it. -/
theorem test_decodeTableWord_unmapped : decodeTableWord 16 0xC807 = some (.rdUnmapped 7#8) := by decide

theorem test_decodeTableWord_wider_row : decodeTableWord 32 0xC810 = some (.rdUnmapped 0x10#8) := by decide

theorem test_decodeTableWord_ign : decodeTableWord 16 0x4000 = some (.ign false 0x40#7 0#8) := by decide

/-! ### The operations, as the first step after reset -/

/-- V1 at its decode: 0x0123 goes out high byte first, and one call was made. -/
theorem test_rdAdc_latches :
    nextIs (step { latched 0xC8#8 0#8 with oracles := ⟨[0x0123#16, 0xABCD#16], 0, [], 0⟩ })
      (fun t => t.resp == [0x01#8, 0x23#8] && t.phase == .responding && t.oracles == ⟨[0xABCD#16], 1, [], 0⟩) = true := by
  decide

/-- V4: the high byte goes first even when it is zero. -/
theorem test_rdAdc_high_byte_zero :
    (regRead Config.hw .adcReading ⟨[0x00FF#16], 0, [], 0⟩).1 = [0x00#8, 0xFF#8] := by decide

/-- V7: one byte, the placeholder of the configuration. -/
theorem test_rdBtn_one_byte :
    (regRead { Config.reference with btnPlaceholder := 0xA5#8 } .buttonMask ⟨[], 0, [], 0⟩).1 = [0xA5#8] := by decide

theorem test_rdBtn_latches :
    nextIs (step (latched 0xC8#8 1#8)) (fun t => t.resp.length == 1 && t.phase == .responding) = true := by decide

/-- V8 at its decode. -/
theorem test_rdStatus_latches :
    nextIs (step (latched 0xC8#8 2#8)) (fun t => t.resp == [0x4F#8, 0x4B#8] && t.oracles.adcCalls == 0) = true := by
  decide

/-- V9: the other byte order, not this hardware's. -/
theorem test_status_other_order :
    (regRead { Config.reference with respMsbFirst := false } .statusToken ⟨[], 0, [], 0⟩).1 = [0x4B#8, 0x4F#8] := by
  decide

/-- V10 at its decode: 1000 Hz. -/
theorem test_rdRate_latches :
    nextIs (step { latched 0xC8#8 3#8 with oracles := ⟨[], 0, [0x03E8#16], 0⟩ })
      (fun t => t.resp == [0x03#8, 0xE8#8] && t.oracles == ⟨[], 0, [], 1⟩) = true := by decide

/-- V13: register 5 is not in this block. -/
theorem test_rdUnmapped_gives_up :
    nextIs (step (latched 0xC8#8 5#8)) (fun t => t.phase == .idle && t.resp == [] && t.wk == .running) = true := by
  decide

/-- V20 at its decode. -/
theorem test_wr_awaits_length :
    nextIs (step (latched 0x48#8 5#8)) (fun t => t.phase == .dispatching && t.wsub == .awaitLen) = true := by decide

/-- V31: a write header for another device is not drained. -/
theorem test_ign_gives_up :
    nextIs (step (latched 0x49#8 5#8)) (fun t => t.phase == .idle && t.wsub == .none) = true := by decide

/-- A placed word runs as the next step. -/
theorem test_withFetchWord_runs :
    nextIs (step (State.reset.withFetchWord 16 0xC802)) (fun t => t.resp == [0x4F#8, 0x4B#8]) = true := by decide

/-! ### The worker's steps -/

/-- V8, first part: `W-WAKE`. -/
theorem test_wake :
    nextIs (step { start [.worker] with q := [0xC8#8], dataReady := true })
      (fun t => t.wk == .running && !t.dataReady && t.q == [0xC8#8]) = true := by decide

/-- V45: `Stop` wins, and the queue is released. -/
theorem test_stop_wins :
    nextIs (step { start [.worker] with q := [0xC8#8, 2#8], dataReady := true, stop := true })
      (fun t => t == { State.reset with phase := .stopped, turnCount := 1 }) = true := by decide

theorem test_pop_address :
    nextIs (step (running [0xC8#8, 2#8] [.worker]))
      (fun t => t.phase == .headerPartial && t.hdr0 == 0xC8#8 && t.q == [2#8]) = true := by decide

theorem test_pop_register :
    nextIs (step { running [2#8] [.worker] with phase := .headerPartial, hdr0 := 0xC8#8 })
      (fun t => t.phase == .dispatching && t.wsub == .none && t.hdr1 == 2#8 && t.hdr0 == 0xC8#8) = true := by decide

/-- V21: a zero length opens no drain. -/
theorem test_pop_length_zero :
    nextIs (step (writing .awaitLen 0#8 [0#8] [.worker])) (fun t => t.phase == .idle && t.wsub == .none) = true := by
  decide

/-- V20: the third byte is the drain count. -/
theorem test_pop_length :
    nextIs (step (writing .awaitLen 0#8 [3#8] [.worker]))
      (fun t => t.phase == .dispatching && t.wsub == .drain && t.drainCnt == 3#8) = true := by decide

theorem test_pop_payload :
    nextIs (step (writing .drain 3#8 [0xC8#8] [.worker]))
      (fun t => t.phase == .dispatching && t.wsub == .drain && t.drainCnt == 2#8) = true := by decide

theorem test_pop_last_payload :
    nextIs (step (writing .drain 1#8 [0xC8#8] [.worker])) (fun t => t.phase == .idle && t.q == []) = true := by decide

/-- V48: without `TxReady` the response waits. -/
theorem test_tx_waits :
    nextIs (step (responding [0x4F#8, 0x4B#8] [.worker])) (fun t => t.phase == .responding && t.tx == []) = true := by
  decide

theorem test_tx_writes :
    nextIs (step (responding [0x4F#8, 0x4B#8] [.txReady]))
      (fun t => t.phase == .idle && t.tx == [0x4F#8, 0x4B#8] && t.resp == []) = true := by decide

/-- V47: a wake that found nothing is followed by a sleep. -/
theorem test_sleep : nextIs (step (running [] [.worker])) (fun t => t.wk == .blocked) = true := by decide

/-- V28: the expiry abandons the write. -/
theorem test_expire :
    nextIs (step (writing .drain 2#8 [] [.underfillExpired])) (fun t => t.phase == .idle && t.wsub == .none) = true := by
  decide

/-- An expiry with a byte queued does nothing (rule R88). -/
theorem test_expire_with_a_byte_queued :
    nextIs (step (writing .drain 2#8 [7#8] [.underfillExpired])) (fun t => t.wsub == .drain && t.q == [7#8]) = true := by
  decide

/-! ### The other agents -/

/-- V40: a byte at rest. -/
theorem test_push :
    nextIs (step (start [.rxByte 0xC8#8])) (fun t => t.q == [0xC8#8] && t.dataReady && t.wk == .blocked) = true := by
  decide +kernel

/-- The small-queue illustration: at capacity 4 the fifth byte is dropped. -/
theorem test_push_drops :
    queuePush 4 0xC8#8 [0xC8#8, 2#8, 0xC8#8, 1#8] = [0xC8#8, 2#8, 0xC8#8, 1#8] := by decide

/-- V42: the flag is raised for the dropped byte too. -/
theorem test_dropped_byte_raises :
    (iPush 1 0xC8#8 (running [2#8] [])).dataReady = true := by decide

/-- V43. -/
theorem test_push_once_stopped : nextIs (step (dead [.rxByte 0xC8#8])) (fun t => t.q == [] && !t.dataReady) = true := by
  decide

/-- V44. -/
theorem test_stopReq : nextIs (step (start [.stopReq])) (fun t => t.stop && t.phase == .idle) = true := by decide

/-- V46. -/
theorem test_stopReq_once_stopped : nextIs (step (dead [.stopReq])) (fun t => !t.stop) = true := by decide

theorem test_reset_leaves_stopped :
    nextIs (step { dead [.reset] with tx := [0x4F#8] }) (fun t => t == { State.reset with turnCount := 1 }) = true := by
  decide

/-! ### The frame rules on byte sequences, with the reference configuration -/

/-- V5: two calls, two draws. -/
theorem test_serve_v5 :
    serveBytes Config.reference .idle ⟨[0x1234#16, 0xABCD#16], 0, [], 0⟩ [0xC8#8, 0#8, 0xC8#8, 0#8] =
      [0x12#8, 0x34#8, 0xAB#8, 0xCD#8] := by decide

/-- V25: the first `C8 02` is payload. -/
theorem test_serve_v25 :
    serveBytes Config.reference .idle ⟨[], 0, [], 0⟩ [0x48#8, 0#8, 2#8, 0xC8#8, 2#8, 0xC8#8, 2#8] =
      [0x4F#8, 0x4B#8] := by decide

/-- V34: one noise byte shifts the pairing, and the last byte is left latched. -/
theorem test_serve_v34 :
    serveBytes Config.reference .idle ⟨[], 0, [], 0⟩ [0x55#8, 0xC8#8, 2#8, 0xC8#8, 2#8] = [] ∧
    cursorAfter Config.reference .idle ⟨[], 0, [], 0⟩ [0x55#8, 0xC8#8, 2#8, 0xC8#8, 2#8] = .header 2#8 := by decide

/-- V37: a foreign write is not drained, and a response comes that nobody asked for. -/
theorem test_serve_v37 :
    serveBytes Config.reference .idle ⟨[], 0, [], 0⟩ [0x49#8, 5#8, 3#8, 0xAA#8, 0xC8#8, 2#8] = [0x4F#8, 0x4B#8] := by
  decide

/-- P2: one sampling cycle of the host. -/
theorem test_serve_p2 :
    serveBytes Config.reference .idle ⟨[0x0123#16], 0, [0x03E8#16], 0⟩ [0xC8#8, 0#8, 0xC8#8, 1#8, 0xC8#8, 3#8] =
      [0x01#8, 0x23#8, 0x00#8, 0x03#8, 0xE8#8] := by decide

/-! ### The host's client -/

/-- S10: the host assembles 0x4F4B. -/
theorem test_readStatus_s10 :
    (readStatus Config.reference ⟨false, [0x4F#8, 0x4B#8]⟩).result.toOption = some true := by decide

/-- R199: in the other order the status is false. -/
theorem test_readStatus_other_order :
    (readStatus Config.reference ⟨false, [0x4B#8, 0x4F#8]⟩).result.toOption = some false := by decide

/-- S12: a link that never replies. -/
theorem test_readRegister_s12 : (readRegister Config.reference ⟨false, []⟩ 2#8 2).result.toOption = none := by decide

/-- S4: a nonzero status byte is failure. -/
theorem test_writeRegister_s4 :
    (writeRegister ⟨false, [1#8]⟩ 5#8 [0xFF#8, 0#8, 0#8]).result.toOption = some (false, []) := by decide

/-! ### The premises of rule R214 -/

theorem test_noExpiryInFrame_between_frames :
    noExpiryInFrame 0 [2, 2] [.rxByte 0xC8#8, .worker, .rxByte 2#8, .underfillExpired, .rxByte 0xC8#8] = true := by
  decide

theorem test_expiry_inside_a_frame :
    noExpiryInFrame 0 [2] [.rxByte 0xC8#8, .underfillExpired, .rxByte 2#8] = false := by decide

/-! ### Witnesses: each statement's hypotheses are met together -/

theorem witness_length_operand : ∃ (len : Byte) (p : List Byte), p.length = len.toNat ∧ p ≠ [] :=
  ⟨2#8, [0xFF#8, 0#8], by decide⟩

theorem witness_opcode_map_clauses :
    (0xC9#8).toNat % 128 ≠ 72 ∧ (0xC7#8).toNat % 128 ≠ 72 ∧ ¬ (0xC8#8).toNat % 128 ≠ 72 ∧
    ¬ (0x48#8).toNat % 128 ≠ 72 := by decide

theorem witness_wellFormed_instruction : ∃ i : Instr, i.wellFormed = true ∧ i = .ign true 0x47#7 0xFF#8 :=
  ⟨_, by decide, rfl⟩

theorem witness_wellFormed_frame :
    ∃ f : Frame, f.wellFormed = true ∧ f.head = .wr 5#8 ∧ f.payload.length = 255 :=
  ⟨⟨.wr 5#8, List.replicate 255 0xC8#8⟩, by decide +kernel, rfl, by decide +kernel⟩

theorem witness_truncated_payload : ∃ (len : Byte) (p : List Byte), p.length < len.toNat ∧ p.length + 1 = len.toNat :=
  ⟨2#8, [0xFF#8], by decide⟩

theorem witness_payload_limits :
    (List.replicate 255 0#8).length ≤ 255 ∧ 255 < (List.replicate 256 0#8).length := by decide +kernel

theorem witness_fixed_answers :
    ∃ s : State, s.oracles.adcAnswers = 0x0123#16 :: [] ∧ s.oracles.rateAnswers = 0x03E8#16 :: [] :=
  ⟨{ State.reset with oracles := ⟨[0x0123#16], 0, [0x03E8#16], 0⟩ }, by decide⟩

theorem witness_lookup :
    lookupRegister 0#8 = some ⟨0#8, 2, .adcReading⟩ ∧ lookupRegister 3#8 = some ⟨3#8, 2, .sampleRateEstimate⟩ ∧
    lookupRegister 4#8 = none ∧ lookupRegister 0xFF#8 = none := by decide

theorem witness_latched_header :
    ∃ s : State, s.nextTurn = .worker ∧ s.phase = .dispatching ∧ s.wsub = .none := ⟨latched 0xC8#8 2#8, by decide⟩

theorem witness_wake :
    ∃ s : State, s.nextTurn = .worker ∧ s.wk = .blocked ∧ s.phase = .idle ∧ s.stop = false ∧ s.dataReady = true ∧
      s.q = [] ∧ s.advanceTurn.nextTurn = .worker :=
  ⟨{ start [.worker, .worker] with dataReady := true }, by decide⟩

theorem witness_stop :
    ∃ s : State, s.nextTurn = .worker ∧ s.wk = .blocked ∧ s.phase = .idle ∧ s.stop = true ∧ s.dataReady = true :=
  ⟨{ start [.worker] with stop := true, dataReady := true }, by decide⟩

theorem witness_running : ∃ s : State, s.wk = .running ∧ s.stop = true := ⟨{ running [] [] with stop := true }, by decide⟩

theorem witness_pop_idle :
    ∃ s : State, s.nextTurn = .worker ∧ s.wk = .running ∧ s.q = 0xC8#8 :: [2#8] ∧ s.phase = .idle :=
  ⟨running [0xC8#8, 2#8] [.worker], by decide⟩

theorem witness_pop_header :
    ∃ s : State, s.nextTurn = .worker ∧ s.wk = .running ∧ s.q = 2#8 :: [] ∧ s.phase = .headerPartial :=
  ⟨{ running [2#8] [.worker] with phase := .headerPartial }, by decide⟩

theorem witness_pop_length_zero :
    ∃ s : State, s.nextTurn = .worker ∧ s.wk = .running ∧ s.q = 0#8 :: [] ∧ s.phase = .dispatching ∧
      s.wsub = .awaitLen := ⟨writing .awaitLen 0#8 [0#8] [.worker], by decide⟩

theorem witness_pop_length :
    ∃ s : State, s.nextTurn = .worker ∧ s.wk = .running ∧ s.q = 0xFF#8 :: [] ∧ s.phase = .dispatching ∧
      s.wsub = .awaitLen := ⟨writing .awaitLen 0#8 [0xFF#8] [.worker], by decide⟩

theorem witness_pop_last :
    ∃ s : State, s.nextTurn = .worker ∧ s.wk = .running ∧ s.q = 0#8 :: [] ∧ s.phase = .dispatching ∧
      s.wsub = .drain ∧ s.drainCnt ≠ 0#8 ∧ s.drainCnt = 1#8 := ⟨writing .drain 1#8 [0#8] [.worker], by decide⟩

theorem witness_pop_payload :
    ∃ s : State, s.nextTurn = .worker ∧ s.wk = .running ∧ s.q = 0#8 :: [] ∧ s.phase = .dispatching ∧
      s.wsub = .drain ∧ s.drainCnt ≠ 0#8 ∧ s.drainCnt = 255#8 := ⟨writing .drain 255#8 [0#8] [.worker], by decide⟩

theorem witness_response_ready : ∃ s : State, s.phase = .responding ∧ s.nextTurn = .txReady :=
  ⟨responding [0#8] [.txReady], by decide⟩

theorem witness_response_waits :
    ∃ s s' : State, s.phase = .responding ∧ s.nextTurn = .worker ∧ s'.phase = .responding ∧
      s'.nextTurn = .underfillExpired :=
  ⟨responding [0#8] [.worker], responding [0#8] [.underfillExpired], by decide⟩

theorem witness_sleep :
    ∃ s : State, s.nextTurn = .worker ∧ s.wk = .running ∧ s.phase = .idle ∧ s.q = [] ∧ s.dataReady = true ∧
      s.stop = false := ⟨{ running [] [.worker] with dataReady := true }, by decide⟩

theorem witness_expire_empty :
    ∃ s : State, s.nextTurn = .underfillExpired ∧ s.wk = .running ∧ s.busy = true ∧ s.q = [] :=
  ⟨{ running [] [.underfillExpired] with phase := .headerPartial }, by decide⟩

theorem witness_expire_queued :
    ∃ s : State, s.nextTurn = .underfillExpired ∧ s.wk = .running ∧ s.busy = true ∧ s.q ≠ [] :=
  ⟨writing .awaitLen 0#8 [3#8] [.underfillExpired], by decide⟩

theorem witness_enabled : enabled .wDecode (latched 0xC8#8 2#8) = true := by decide

theorem witness_invariants :
    ∃ s : State, s.Inv ∧ s.phase = .dispatching ∧ s.wsub = .drain ∧ s.q ≠ [] :=
  ⟨writing .drain 2#8 [0xC8#8] [.worker], by decide +kernel, rfl, rfl, by decide⟩

theorem witness_push_room :
    ∃ s : State, s.nextTurn = .rxByte 0xC8#8 ∧ s.phase ≠ .stopped ∧ s.q.length < Config.hw.qcap :=
  ⟨{ start [.rxByte 0xC8#8] with q := List.replicate 257 0#8 }, by decide, by decide, by decide +kernel⟩

theorem witness_push_full :
    ∃ s : State, s.nextTurn = .rxByte 0xC8#8 ∧ s.phase ≠ .stopped ∧ Config.hw.qcap ≤ s.q.length :=
  ⟨{ start [.rxByte 0xC8#8] with q := List.replicate Config.hw.qcap 0#8 }, rfl, by simp [start, State.reset], by simp⟩

theorem witness_push_stopped : ∃ s : State, s.nextTurn = .rxByte 0xC8#8 ∧ s.phase = .stopped :=
  ⟨dead [.rxByte 0xC8#8], by decide⟩

theorem witness_queue_full : ∃ (cap : Nat) (q : List Byte), q.length ≤ cap ∧ q.length = cap ∧ q ≠ [] :=
  ⟨2, [0xC8#8, 2#8], by decide⟩

theorem witness_stopReq :
    ∃ s s' : State, s.nextTurn = .stopReq ∧ s.phase ≠ .stopped ∧ s'.nextTurn = .stopReq ∧ s'.phase = .stopped :=
  ⟨start [.stopReq], dead [.stopReq], by decide⟩

theorem witness_stop_raised : ∃ s t : State, step s = .next t ∧ s.stop = false ∧ t.stop = true :=
  ⟨start [.stopReq], _, rfl, rfl, rfl⟩

theorem witness_dataReady_cleared : ∃ s t : State, step s = .next t ∧ s.dataReady = true ∧ t.dataReady = false :=
  ⟨{ start [.worker] with dataReady := true }, _, rfl, rfl, rfl⟩

theorem witness_dataReady_raised : ∃ s t : State, step s = .next t ∧ s.dataReady = false ∧ t.dataReady = true :=
  ⟨start [.rxByte 0xC8#8], _, rfl, rfl, rfl⟩

theorem witness_stopped_stays : ∃ s : State, s.phase = .stopped ∧ s.nextTurn ≠ .reset ∧ s.nextTurn = .rxByte 0xC8#8 :=
  ⟨dead [.rxByte 0xC8#8], by decide⟩

theorem witness_stopped_entered : ∃ s t : State, step s = .next t ∧ s.phase ≠ .stopped ∧ t.phase = .stopped :=
  ⟨{ start [.worker] with stop := true }, _, rfl, by decide, rfl⟩

theorem witness_reset : ∃ s : State, s.nextTurn = .reset ∧ s.phase = .stopped := ⟨dead [.reset], by decide⟩

/-- The schedule of a served READ. -/
def readTurns : List Turn := [.worker, .worker, .worker, .txReady]

theorem witness_read_frames :
    ∀ r ∈ [0#8, 1#8, 2#8, 3#8], ∃ s : State, s.phase = .idle ∧ s.wk = .running ∧ s.q = 0xC8#8 :: r :: [] ∧
      s.turns = readTurns ++ [] := fun r _ => ⟨running [0xC8#8, r] readTurns, rfl, rfl, rfl, rfl⟩

theorem witness_unserved_frame_unmapped :
    ∃ s : State, s.phase = .idle ∧ s.wk = .running ∧ s.q = 0xC8#8 :: 4#8 :: [] ∧
      s.turns = .worker :: .worker :: .worker :: [] ∧ 4 ≤ (4#8).toNat :=
  ⟨running [0xC8#8, 4#8] [.worker, .worker, .worker], by decide⟩

theorem witness_unserved_frame_foreign :
    ∃ s : State, s.phase = .idle ∧ s.wk = .running ∧ s.q = 0x49#8 :: 0xC8#8 :: [] ∧
      s.turns = .worker :: .worker :: .worker :: [] ∧ (0x49#8).toNat % 128 ≠ 72 :=
  ⟨running [0x49#8, 0xC8#8] [.worker, .worker, .worker], by decide⟩

theorem witness_write_frame :
    ∃ (s : State) (len : Byte) (payload : List Byte), s.phase = .idle ∧ s.wk = .running ∧
      payload.length = len.toNat ∧ s.q = 0x48#8 :: 5#8 :: len :: (payload ++ [0xC8#8]) ∧
      s.turns = List.replicate (4 + len.toNat) .worker ++ [] ∧ len ≠ 0#8 :=
  ⟨running [0x48#8, 5#8, 3#8, 0xFF#8, 0#8, 0#8, 0xC8#8] (List.replicate 7 .worker), 3#8, [0xFF#8, 0#8, 0#8], by decide⟩

theorem witness_write_frame_empty :
    ∃ s : State, s.phase = .idle ∧ s.wk = .running ∧ s.q = 0x48#8 :: 9#8 :: 0#8 :: ([] ++ []) ∧
      s.turns = List.replicate (4 + (0#8).toNat) .worker ++ [] :=
  ⟨running [0x48#8, 9#8, 0#8] (List.replicate 4 .worker), by decide⟩

theorem witness_resynchronisation :
    ∃ s : State, s.wk = .running ∧ s.busy = true ∧ s.q = [] ∧
      s.turns = .underfillExpired :: .rxByte 0xC8#8 :: .rxByte 0x02#8 :: .worker :: .worker :: .worker :: .txReady :: [] :=
  ⟨{ running [] [.underfillExpired, .rxByte 0xC8#8, .rxByte 2#8, .worker, .worker, .worker, .txReady] with
      phase := .headerPartial, hdr0 := 0x55#8 }, by decide⟩

theorem witness_invariants_step : ∃ s t : State, s.Inv ∧ step s = .next t ∧ t.phase = .responding :=
  ⟨latched 0xC8#8 2#8, _, by decide +kernel, rfl, rfl⟩

theorem witness_step_not_reset :
    ∃ s t : State, step s = .next t ∧ s.nextTurn ≠ .reset ∧ s.phase = .responding ∧ t.tx = [0x4F#8] :=
  ⟨responding [0x4F#8] [.txReady], _, rfl, by decide, rfl, rfl⟩

theorem witness_dont_cares :
    ∃ s s' t : State, s.masked = s'.masked ∧ s ≠ s' ∧ step s = .next t ∧ t.phase = .headerPartial :=
  ⟨running [0xC8#8] [.worker], { running [0xC8#8] [.worker] with hdr0 := 7#8, hdr1 := 8#8, drainCnt := 9#8 }, _,
    by decide, by decide, rfl, rfl⟩

theorem witness_rest : ∃ s : State, s.Inv ∧ s.AtRest ∧ s.tx ≠ [] :=
  ⟨{ State.reset with tx := [0x4F#8] }, by decide +kernel, by decide, by decide⟩

/-- One byte received, and the worker's turns after it. -/
def eager : List Turn := [.rxByte 0xC8#8, .worker, .worker]

/-- The same byte received after a turn of the sleeping worker. -/
def late : List Turn := [.worker, .rxByte 0xC8#8, .worker, .worker]

/-- A byte received with room in the queue (rule R152). -/
theorem step_push {s : State} {b : Byte} (ht : s.nextTurn = .rxByte b) (hp : s.phase ≠ .stopped)
    (hq : s.q = []) : step s = .next { s.advanceTurn with q := [b], dataReady := true } := by
  have h := qcap_ge
  have hcap : 0 < Config.hw.qcap := by omega
  simp [step, runTurn, ht, iPush, State.advanceTurn, hp, queuePush, hq, hcap, State.raiseDataReady]

/-- A turn with no byte in it drops none. -/
theorem noDrop_other {n : Nat} {s t : State} (ht : ∀ b, s.nextTurn ≠ .rxByte b) (hs : step s = .next t)
    (h : t.NoDrop n) : s.NoDrop (n + 1) :=
  ⟨fun b hb => absurd hb (ht b), fun u hu => by rw [hs] at hu; cases hu; exact h⟩

/-- A byte received at an empty queue is not dropped. -/
theorem noDrop_push {n : Nat} {s : State} {b : Byte} (ht : s.nextTurn = .rxByte b) (hp : s.phase ≠ .stopped)
    (hq : s.q = []) (h : State.NoDrop n { s.advanceTurn with q := [b], dataReady := true }) : s.NoDrop (n + 1) := by
  have hcap := qcap_ge
  refine ⟨fun _ _ => by rw [hq]; simp only [List.length_nil]; omega, fun u hu => ?_⟩
  rw [step_push ht hp hq] at hu
  cases hu
  exact h

/-- One step put in front of a run. -/
theorem run_cons {n : Nat} {s t u : State} (hs : step s = .next t) (h : runSteps n t = .next u) :
    runSteps (n + 1) s = .next u := by
  simp [runSteps, hs, h]

/-- Where the byte of `eager` and of `late` leaves the run, after `n` turns. -/
def taken (n : Nat) : State :=
  { start [] with wk := .running, phase := .headerPartial, hdr0 := 0xC8#8, turnCount := n }

theorem eager_noDrop : (start eager).NoDrop 3 :=
  noDrop_push (b := 0xC8#8) rfl (by decide) rfl <|
    noDrop_other (by simp [State.nextTurn, State.advanceTurn, start, eager]) rfl <|
    noDrop_other (by simp [State.nextTurn, State.advanceTurn, start, eager, wWake, State.clearDataReady]) rfl trivial

theorem late_noDrop : (start late).NoDrop 4 :=
  noDrop_other (by simp [State.nextTurn, start, late]) rfl <| noDrop_push (b := 0xC8#8) rfl (by decide) rfl <|
    noDrop_other (by simp [State.nextTurn, State.advanceTurn, start, late]) rfl <|
    noDrop_other (by simp [State.nextTurn, State.advanceTurn, start, late, wWake, State.clearDataReady]) rfl trivial

theorem eager_run : runSteps 3 (start eager) = .next (taken 3) :=
  run_cons (step_push (b := 0xC8#8) rfl (by decide) rfl) <| run_cons rfl <| run_cons rfl rfl

theorem late_run : runSteps 4 (start late) = .next (taken 4) :=
  run_cons rfl <| run_cons (step_push (b := 0xC8#8) rfl (by decide) rfl) <| run_cons rfl <| run_cons rfl rfl

theorem witness_frame_rules_run :
    ∃ s t : State, s.CleanEntry ∧ 3 ≤ s.turns.length ∧ noStop (s.turns.take 3) = true ∧
      noReset (s.turns.take 3) = true ∧ noExpiry (s.turns.take 3) = true ∧ s.NoDrop 3 ∧ runSteps 3 s = .next t ∧
      t.Drained ∧ t.hdr0 = 0xC8#8 :=
  ⟨start eager, taken 3, by decide, by decide, by decide, by decide, by decide, eager_noDrop, eager_run, by decide, rfl⟩

theorem witness_two_schedules :
    ∃ s s' t t' : State, s.CleanEntry ∧ s'.CleanEntry ∧ s.tx = s'.tx ∧ s.oracles = s'.oracles ∧
      3 ≤ s.turns.length ∧ 4 ≤ s'.turns.length ∧
      noStop (s.turns.take 3) = true ∧ noReset (s.turns.take 3) = true ∧ noExpiry (s.turns.take 3) = true ∧
      noStop (s'.turns.take 4) = true ∧ noReset (s'.turns.take 4) = true ∧ noExpiry (s'.turns.take 4) = true ∧
      rxBytes (s.turns.take 3) = rxBytes (s'.turns.take 4) ∧ s.NoDrop 3 ∧ s'.NoDrop 4 ∧
      runSteps 3 s = .next t ∧ runSteps 4 s' = .next t' ∧ t.Drained ∧ t'.Drained :=
  ⟨start eager, start late, taken 3, taken 4,
    by decide, by decide, rfl, rfl, by decide, by decide, by decide, by decide, by decide, by decide, by decide,
    by decide, by decide, eager_noDrop, late_noDrop, eager_run, late_run, by decide, by decide⟩

/-- A byte received behind at most three others (rule R152). -/
theorem step_push_behind {s : State} {b : Byte} (ht : s.nextTurn = .rxByte b) (hp : s.phase ≠ .stopped)
    (hq : s.q.length ≤ 3) : step s = .next { s.advanceTurn with q := s.q ++ [b], dataReady := true } := by
  have h := qcap_ge
  have hcap : s.q.length < Config.hw.qcap := by omega
  simp [step, runTurn, ht, iPush, State.advanceTurn, hp, queuePush, hcap, State.raiseDataReady]

/-- A status READ that is answered. -/
def goodRequest : Exchange :=
  ⟨.rdx 0x48#7 2#8, [0xC8#8, 2#8], [.rxByte 0xC8#8, .rxByte 2#8], [.worker, .worker, .worker, .worker, .txReady], .response⟩

/-- A READ of register 7, which the host gives up waiting for, with an expiry in the silence. -/
def badRequest : Exchange :=
  ⟨.rdx 0x48#7 7#8, [0xC8#8, 7#8], [.rxByte 0xC8#8, .rxByte 7#8], [.worker, .worker, .worker, .underfillExpired], .timedOut⟩

/-- A WRITE for another device, of whose four bytes the block makes two headers of no concern to it. -/
def foreignRequest : Exchange :=
  ⟨.wrx 0x49#7 5#8 [0xAA#8], [0x49#8, 5#8, 1#8, 0xAA#8], [.rxByte 0x49#8, .rxByte 5#8, .rxByte 1#8, .rxByte 0xAA#8],
    List.replicate 6 .worker ++ [.underfillExpired], .linkFailed⟩

/-- A request answered, one given up, and one for another device. -/
def someRequests : List Exchange := [goodRequest, badRequest, foreignRequest]

/-- The reset state with the requests to come. -/
def beforeRequests : State := start (exchangeTurns someRequests)

/-- After the bytes of the first request. -/
def goodArrived : State :=
  { start (goodRequest.silence ++ exchangeTurns [badRequest, foreignRequest]) with q := [0xC8#8, 2#8], dataReady := true, turnCount := 2 }

/-- After the first request. -/
def betweenRequests : State :=
  { running [] (exchangeTurns [badRequest, foreignRequest]) with hdr0 := 0xC8#8, hdr1 := 2#8, tx := [0x4F#8, 0x4B#8], turnCount := 7 }

/-- After the bytes of the second request. -/
def badArrived : State :=
  { betweenRequests with q := [0xC8#8, 7#8], dataReady := true, turns := badRequest.silence ++ foreignRequest.turns, turnCount := 9 }

/-- After the second request. -/
def afterGivenUp : State :=
  { betweenRequests with dataReady := true, hdr1 := 7#8, turns := foreignRequest.turns, turnCount := 13 }

/-- After the bytes of the third request. -/
def foreignArrived : State :=
  { afterGivenUp with q := [0x49#8, 5#8, 1#8, 0xAA#8], turns := foreignRequest.silence, turnCount := 17 }

/-- After all three. -/
def afterRequests : State :=
  { afterGivenUp with hdr0 := 1#8, hdr1 := 0xAA#8, turns := [], turnCount := 24 }

theorem good_arrives : runSteps 2 beforeRequests = .next goodArrived :=
  run_cons (step_push_behind (b := 0xC8#8) rfl (by decide) (by decide)) <|
    run_cons (step_push_behind (b := 2#8) rfl (by decide) (by decide)) rfl

theorem good_is_answered : runSteps 5 goodArrived = .next betweenRequests :=
  run_cons rfl <| run_cons rfl <| run_cons rfl <| run_cons rfl <| run_cons rfl rfl

theorem bad_arrives : runSteps 2 betweenRequests = .next badArrived :=
  run_cons (step_push_behind (b := 0xC8#8) rfl (by decide) (by decide)) <|
    run_cons (step_push_behind (b := 7#8) rfl (by decide) (by decide)) rfl

theorem bad_is_given_up : runSteps 4 badArrived = .next afterGivenUp :=
  run_cons rfl <| run_cons rfl <| run_cons rfl <| run_cons rfl rfl

theorem good_run : runSteps 7 beforeRequests = .next betweenRequests :=
  (runSteps_add (n := 5) good_arrives).trans good_is_answered

theorem bad_run : runSteps 6 betweenRequests = .next afterGivenUp :=
  (runSteps_add (n := 4) bad_arrives).trans bad_is_given_up

theorem foreign_arrives : runSteps 4 afterGivenUp = .next foreignArrived :=
  run_cons (step_push_behind (b := 0x49#8) rfl (by decide) (by decide)) <|
    run_cons (step_push_behind (b := 5#8) rfl (by decide) (by decide)) <|
    run_cons (step_push_behind (b := 1#8) rfl (by decide) (by decide)) <|
    run_cons (step_push_behind (b := 0xAA#8) rfl (by decide) (by decide)) rfl

theorem foreign_is_ignored : runSteps 7 foreignArrived = .next afterRequests :=
  run_cons rfl <| run_cons rfl <| run_cons rfl <| run_cons rfl <| run_cons rfl <| run_cons rfl <| run_cons rfl rfl

theorem foreign_run : runSteps 11 afterGivenUp = .next afterRequests :=
  (runSteps_add (n := 7) foreign_arrives).trans foreign_is_ignored

theorem requests_oneOutstanding : beforeRequests.OneOutstanding someRequests := by
  intro t ht
  cases good_run.symm.trans ht
  refine ⟨fun _ => ⟨2#8, ⟨2#8, 2, .statusToken⟩, rfl, rfl, by decide⟩, fun h => absurd rfl h, fun t ht => ?_⟩
  cases bad_run.symm.trans ht
  refine ⟨nofun, fun _ => by decide, fun t ht => ?_⟩
  cases foreign_run.symm.trans ht
  exact ⟨nofun, fun _ => by decide, trivial⟩

theorem bad_expiry : badArrived.ExpiryFalls 4 :=
  .inr ⟨_, rfl, .inr ⟨_, rfl, .inr ⟨_, rfl, .inl ⟨rfl, by decide⟩⟩⟩⟩

theorem foreign_expiry : foreignArrived.ExpiryFalls 7 :=
  .inr ⟨_, rfl, .inr ⟨_, rfl, .inr ⟨_, rfl, .inr ⟨_, rfl, .inr ⟨_, rfl, .inr ⟨_, rfl, .inl ⟨rfl, by decide⟩⟩⟩⟩⟩⟩⟩

theorem requests_expiryInSilence : beforeRequests.ExpiryInSilence someRequests := by
  refine ⟨rfl, fun m hm => ?_⟩
  cases good_arrives.symm.trans hm
  refine ⟨fun h => absurd rfl h, fun t ht => ?_⟩
  cases good_is_answered.symm.trans ht
  refine ⟨rfl, fun m hm => ?_⟩
  cases bad_arrives.symm.trans hm
  refine ⟨fun _ => bad_expiry, fun t ht => ?_⟩
  cases bad_is_given_up.symm.trans ht
  refine ⟨rfl, fun m hm => ?_⟩
  cases foreign_arrives.symm.trans hm
  exact ⟨fun _ => foreign_expiry, fun _ _ => trivial⟩

/-- A request answered, one given up and one for another device, of rules R136, R204 and R214. -/
theorem witness_requests :
    ∃ (xs : List Exchange) (s t : State), s.CleanEntry ∧ s.turns = exchangeTurns xs ++ [] ∧
      (∀ x ∈ xs, WholeFrames [x.request] x.sent) ∧ (∀ x ∈ xs, InOrderBytes x.sent x.turns) ∧ s.OneOutstanding xs ∧
      s.ExpiryInSilence xs ∧
      runSteps (exchangeTurns xs).length s = .next t ∧ t.tx = [0x4F#8, 0x4B#8] :=
  ⟨someRequests, beforeRequests, afterRequests, by decide, rfl,
    by simp only [wholeFrames_singleton]; decide, by unfold InOrderBytes; decide, requests_oneOutstanding,
    requests_expiryInSilence, (runSteps_add (n := 17) good_run).trans ((runSteps_add (n := 11) bad_run).trans foreign_run), rfl⟩

/-- V37: a WRITE for another device is whole with its length byte and payload, and not with its header alone. -/
theorem test_wholeFrames_foreign_write :
    WholeFrames [.wrx 0x49#7 5#8 [0xAA#8, 0xC8#8, 2#8]] [0x49#8, 5#8, 3#8, 0xAA#8, 0xC8#8, 2#8] ∧
    ¬ WholeFrames [.wrx 0x49#7 5#8 [0xAA#8, 0xC8#8, 2#8]] [0x49#8, 5#8] := by
  simp only [wholeFrames_singleton]
  decide

/-- A host that sends again while the bytes of the frame before are still queued has two outstanding, by whatever name
it ended the first. -/
theorem test_given_up_too_early :
    ¬ beforeRequests.OneOutstanding [{ goodRequest with silence := [], completion := .timedOut }, badRequest, foreignRequest] :=
  fun h => absurd ((h _ good_arrives).2.1 (by decide)) (by decide)

/-- An expiry falls too early while a header waits to be decoded, although the queue is empty. -/
theorem test_expiry_before_decode : ¬ ({ latched 0x48#8 0#8 with turns := [.underfillExpired] } : State).ExpiryFalls 1 := by
  rintro (⟨-, h⟩ | ⟨t, -, h⟩)
  · exact absurd h (by decide)
  · exact h

theorem witness_small_traffic :
    ∃ s : State, s.CleanEntry ∧ 3 ≤ s.turns.length ∧ (rxBytes (s.turns.take 3)).length ≤ 258 := ⟨start eager, by decide⟩

theorem witness_fair_turns :
    ∃ s : State, s.Inv ∧ s.stop = false ∧ s.turns = fairTurns 10 ++ [] ∧ 3 * s.q.length + 4 ≤ 10 ∧ s.wk = .blocked ∧
      s.q ≠ [] :=
  ⟨{ start (fairTurns 10) with q := [0xC8#8, 2#8], dataReady := true }, by decide +kernel, rfl, by decide, by decide, rfl,
    by decide⟩

theorem witness_status_poll :
    (∃ s t : State, exec .rdStatus s = .next t) ∧ ¬ ((0x4F#8) = 0x4F#8 ∧ (0x4C#8) = 0x4B#8) :=
  ⟨⟨State.reset, _, rfl⟩, by decide⟩

theorem witness_link_clauses :
    ∃ l l' : Link, l.failed = true ∧ l'.failed = false ∧ l'.input.length < 2 ∧ l'.input ≠ [] :=
  ⟨⟨true, []⟩, ⟨false, [0x4F#8]⟩, by decide⟩

end Sys2Proof.Tests
end

/-! SUPPORT. The statements about the state (`10_state.md`), settled, with the lemmas they need: the masking of the
don't-care latches, the invariants along a step, and what a served read answers. -/

namespace Sys2Proof.Machine

/-! ### The don't-care latches (rules R23, R24)

Masking an outcome and stepping commute up to masking: `step_masked`. -/

/-- An outcome with the don't-care latches of its next state, if it has one, set to their fixed value. -/
def maskOutcome : Host.Outcome State Fault Refusal → Host.Outcome State Fault Refusal
  | .next s => .next s.masked
  | .fault r => .fault r
  | .refused r => .refused r

@[simp] theorem maskOutcome_next (s : State) : maskOutcome (.next s) = .next s.masked := rfl

/-- Only a next state is masked to a next state. -/
theorem next_of_maskOutcome {o : Host.Outcome State Fault Refusal} {m : State} (h : maskOutcome o = .next m) :
    ∃ t, o = .next t ∧ m = t.masked := by
  cases o <;> cases h
  exact ⟨_, rfl, rfl⟩

@[simp] theorem masked_masked (s : State) : s.masked.masked = s.masked := by
  cases hp : s.phase <;> cases hs : s.wsub <;> simp [State.masked, hp, hs]

@[simp] theorem nextTurn_masked (s : State) : s.masked.nextTurn = s.nextTurn := rfl

/-- Which step is offered does not depend on the latches. -/
@[simp] theorem nextWorkerStep_masked (s : State) : nextWorkerStep s.masked = nextWorkerStep s := rfl

/-! Steps that touch neither phase nor sub-state nor a latch commute with the masking. -/

theorem advanceTurn_masked (s : State) : s.masked.advanceTurn = s.advanceTurn.masked := rfl

theorem iPush_masked (n : Nat) (b : Byte) (s : State) : iPush n b s.masked = (iPush n b s).masked := by
  unfold iPush
  split <;> simp_all [State.masked, State.raiseDataReady]

theorem sRaise_masked (s : State) : sRaise s.masked = (sRaise s).masked := by
  unfold sRaise
  split <;> simp_all [State.masked, State.raiseStop]

theorem wWake_masked (s : State) : wWake s.masked = (wWake s).masked := rfl

theorem wSleep_masked (s : State) : wSleep s.masked = (wSleep s).masked := rfl

/-! Steps that move the phase or write a latch differ at most in latches that are then don't-cares. -/

theorem awaitLength_masked (s : State) : s.masked.awaitLength.masked = s.awaitLength.masked := by
  cases hp : s.phase <;> simp [State.masked, State.awaitLength, hp]

theorem takeByte_masked (b : Byte) (s : State) : (takeByte b s.masked).masked = (takeByte b s).masked := by
  cases hp : s.phase <;> cases hs : s.wsub <;> simp [takeByte, State.masked, hp, hs]
  case dispatching.awaitLen => split <;> simp

theorem wPop_masked (s : State) : (wPop s.masked).masked = (wPop s).masked := by
  cases hq : s.q with
  | nil => simp [wPop, show s.masked.q = [] from hq, hq]
  | cons b rest =>
    rw [wPop_cons hq, wPop_cons (s := s.masked) hq]
    exact takeByte_masked b { s with q := rest }

/-- An operation reads no latch: those it is selected by are read at the decode. -/
theorem exec_masked (i : Instr) (s : State) : maskOutcome (exec i s.masked) = maskOutcome (exec i s) := by
  cases i
  case wr reg => exact congrArg Host.Outcome.next (awaitLength_masked s)
  all_goals rfl

/-- A worker step that is enabled reads no latch that is a don't-care; only the decode reads the header latches, and
where it is enabled they are none. -/
theorem runWorkerStep_masked {w : WorkerStep} {s : State} (he : enabled w s = true) :
    maskOutcome (runWorkerStep w s.masked) = maskOutcome (runWorkerStep w s) := by
  cases w
  case wDecode =>
    obtain ⟨hp, -⟩ := (enabled_iff .wDecode s).1 he
    have h0 : s.masked.hdr0 = s.hdr0 := by simp [State.masked, hp]
    have h1 : s.masked.hdr1 = s.hdr1 := by simp [State.masked, hp]
    simp only [runWorkerStep, h0, h1, exec_masked]
  case wPop => exact congrArg Host.Outcome.next (wPop_masked s)
  case wWake => simp [runWorkerStep, wWake_masked]
  case wSleep => simp [runWorkerStep, wSleep_masked]
  all_goals rfl

theorem workerTurn_masked (t : Turn) (s : State) :
    maskOutcome (workerTurn t s.masked) = maskOutcome (workerTurn t s) := by
  cases hw : nextWorkerStep s with
  | none => simp [workerTurn, hw]
  | some w =>
    cases hg : grants t w with
    | true => simp [workerTurn, hw, hg, runWorkerStep_masked (enabled_of_next hw)]
    | false => simp [workerTurn, hw, hg]

/-- A step of the masked state is, masked, the step of the state itself. -/
theorem step_masked (s : State) : maskOutcome (step s.masked) = maskOutcome (step s) := by
  unfold step
  rw [nextTurn_masked, advanceTurn_masked]
  cases s.nextTurn with
  | rxByte b => simp [runTurn, iPush_masked]
  | stopReq => simp [runTurn, sRaise_masked]
  | reset => rfl
  | underfillExpired => exact workerTurn_masked _ _
  | txReady => exact workerTurn_masked _ _
  | worker => exact workerTurn_masked _ _

/-! ### The invariants (rule R33) -/

theorem inv_reset : State.reset.Inv := by
  simp [State.Inv, State.reset]

/-- The invariants of a stopped block: it holds nothing. -/
theorem inv_wStop (s : State) : (wStop s).Inv := by
  simp [State.Inv]

/-- What is left of the invariants for a running worker, where the wait and `Stopped` are out of the question. -/
theorem inv_of_running {t : State} (hw : t.wk = .running) (hp : t.phase ≠ .stopped)
    (hq : t.q.length ≤ Config.hw.qcap) (hr : (t.phase = .responding ↔ t.resp ≠ []) ∧ t.resp.length ≤ 2)
    (hs : (t.wsub ≠ .none → t.phase = .dispatching) ∧ (t.wsub = .drain → t.drainCnt ≠ 0#8)) : t.Inv :=
  ⟨hq, fun h => by simp [hw] at h, hr, hs, fun _ h => by simp [hw] at h, fun h => absurd h hp⟩

/-- A worker that stands at neither place of the wait is running. -/
theorem running_of_inv {s : State} (hi : s.Inv) (hp : s.phase ≠ .idle ∧ s.phase ≠ .stopped) :
    s.wk = .running := by
  obtain ⟨-, hblocked, -⟩ := hi
  cases hw : s.wk with
  | running => rfl
  | blocked => simp [hp] at hblocked; contradiction

/-- Outside `Responding` no response is latched. -/
theorem resp_nil_of_inv {s : State} (hi : s.Inv) (hp : s.phase ≠ .responding) : s.resp = [] := by
  obtain ⟨-, -, ⟨hresp, -⟩, -⟩ := hi
  exact not_not.1 (mt hresp.2 hp)

/-- Outside `Dispatching` there is no sub-state. -/
theorem wsub_none_of_inv {s : State} (hi : s.Inv) (hp : s.phase ≠ .dispatching) : s.wsub = .none := by
  obtain ⟨-, -, -, ⟨hsub, -⟩, -⟩ := hi
  exact not_not.1 (mt hsub hp)

/-- A pop keeps the queue within its capacity. -/
theorem tail_le_of_inv {s : State} {b : Byte} {rest : List Byte} (hi : s.Inv) (hq : s.q = b :: rest) :
    rest.length ≤ Config.hw.qcap := by
  obtain ⟨hcap, -⟩ := hi
  rw [hq, List.length_cons] at hcap
  omega

/-- Every effect a step can have keeps the invariants. -/
theorem inv_of_stepEffect {s t : State} (hi : s.Inv) (he : StepEffect s t) : t.Inv := by
  have hrun : s.phase ≠ .idle ∧ s.phase ≠ .stopped → s.wk = .running := running_of_inv hi
  have hnil : s.phase ≠ .responding → s.resp = [] := resp_nil_of_inv hi
  have hnone : s.phase ≠ .dispatching → s.wsub = .none := wsub_none_of_inv hi
  have hpop : ∀ {b : Byte} {rest : List Byte}, s.q = b :: rest → rest.length ≤ Config.hw.qcap := tail_le_of_inv hi
  obtain ⟨hcap, hblocked, hresp, hsub, hwake, -⟩ := id hi
  cases he with
  | push b turn live room =>
    have hroom : (s.q ++ [b]).length ≤ Config.hw.qcap := by rw [List.length_append]; exact room
    exact ⟨hroom, hblocked, hresp, hsub, fun _ _ _ => rfl, fun dead => absurd dead live⟩
  | drop b turn live full => exact ⟨hcap, hblocked, hresp, hsub, fun _ _ _ => rfl, fun dead => absurd dead live⟩
  | raise turn live => exact ⟨hcap, hblocked, hresp, hsub, hwake, fun dead => absurd dead live⟩
  | discard | raiseDead | wait => exact hi
  | reset turn => exact inv_reset
  | stop => exact inv_wStop _
  | wake turn next blocked idle => exact inv_of_running rfl (by simp [idle]) hcap hresp hsub
  | sleep turn running queue at_ => simp [State.Inv, hnil, hnone, at_, queue]
  | popIdle b rest turn queue running at_ =>
    exact inv_of_running running (by simp) (hpop queue) (by simp [hnil, at_]) (by simp [hnone, at_])
  | popHeader b rest turn queue running at_ =>
    exact inv_of_running running (by simp) (hpop queue) (by simp [hnil, at_]) (by simp)
  | popLengthZero rest turn queue running at_ =>
    exact inv_of_running running (by simp) (hpop queue) (by simp [hnil, at_]) (by simp)
  | popLength b rest turn queue ne running at_ =>
    exact inv_of_running running (by simp [at_]) (hpop queue) hresp (by simp [at_, ne])
  | popLast b rest turn queue running at_ =>
    exact inv_of_running running (by simp) (hpop queue) (by simp [hnil, at_]) (by simp)
  | popPayload b rest turn queue running at_ sub more =>
    exact inv_of_running running (by simp [at_]) (hpop queue) hresp (by simp [at_, more])
  | decodeRead k turn at_ sub =>
    exact inv_of_running (hrun (by simp [at_])) (by simp) hcap (by simp [regRead_ne_nil, regRead_length_le])
      (by simp [sub])
  | decodeWrite turn at_ =>
    exact inv_of_running (hrun (by simp [at_])) (by simp [at_]) hcap hresp (by simp [at_])
  | decodeAbandon c turn at_ =>
    exact inv_of_running (hrun (by simp [at_])) (by simp) hcap (by simp [hnil, at_]) (by simp)
  | transmit turn at_ =>
    exact inv_of_running (hrun (by simp [at_])) (by simp) hcap (by simp) (by simp [hnone, at_])
  | expire turn running queue at_ =>
    have hp : s.phase ≠ .responding := by rcases at_ with at_ | ⟨at_, -⟩ <;> simp [at_]
    exact inv_of_running running (by simp) hcap (by simp [hnil hp]) (by simp)

/-! ### The oracles and the register look-up -/

/-- A call of the converter counts itself and consumes a fixed answer (rule R176). -/
theorem adcRead_oracles (ch : Nat) (o : Oracles) :
    (adcRead ch o).2 = { o with adcCalls := o.adcCalls + 1, adcAnswers := o.adcAnswers.tail } := by
  cases h : o.adcAnswers <;> simp [adcRead, h]

/-- A call of the estimator counts itself and consumes a fixed answer (rule R177). -/
theorem rateEstimate_oracles (o : Oracles) :
    (rateEstimate o).2 = { o with rateCalls := o.rateCalls + 1, rateAnswers := o.rateAnswers.tail } := by
  cases h : o.rateAnswers <;> simp [rateEstimate, h]

theorem exec_rdStatus (s : State) : exec .rdStatus s = .next (s.serveRead Config.hw .statusToken) := rfl

theorem lookupRegister_eq_none_iff (r : Byte) : lookupRegister r = none ↔ 4 ≤ r.toNat := by
  revert r; decide

theorem decodeInstr_read_served_iff (r : Byte) : (decodeInstr 0xC8#8 r).isServedRead = true ↔ ¬ 4 ≤ r.toNat := by
  revert r; decide

/-- A register that the look-up finds is an entry of the table, at the address looked up. -/
theorem mem_of_lookupRegister {r : Byte} {reg : Register} (h : lookupRegister r = some reg) :
    reg ∈ registerTable ∧ reg.address = r :=
  ⟨List.mem_of_find?_eq_some h, by simpa using List.find?_some h⟩

/-- A READ of a register of the table calls its handler (rules R85, R100). -/
theorem exec_read_of_mem {reg : Register} (h : reg ∈ registerTable) (s : State) :
    exec (decodeInstr 0xC8#8 reg.address) s = .next (s.serveRead Config.hw reg.semantics) := by
  simp only [registerTable, List.mem_cons, List.not_mem_nil, or_false] at h
  rcases h with rfl | rfl | rfl | rfl <;> rfl

/-- The dispatcher's answer is as wide as the register (rules R11, R45). -/
theorem regRead_width_of_mem {reg : Register} (h : reg ∈ registerTable) (c : Config) (o : Oracles) :
    (regRead c reg.semantics o).1.length = reg.width := by
  simp only [registerTable, List.mem_cons, List.not_mem_nil, or_false] at h
  rcases h with rfl | rfl | rfl | rfl <;> simp

end Sys2Proof.Machine

namespace Sys2Proof.Proofs

open Sys2Proof.Machine

/-! ### Settled: whole-step claims -/

/-- Settles O44: by cases on the effect of the step. -/
theorem everyStepKeepsTheInvariants : Obligations.EveryStepKeepsTheInvariants :=
  fun _ _ hi h => inv_of_stepEffect hi (step_effect h)

/-- Settles O50: the two states have one masked state, whose step is, masked, the step of each. -/
theorem dontCareLatchesAreNotRead : Obligations.DontCareLatchesAreNotRead := by
  intro s s' t hm hs
  have h : maskOutcome (step s') = .next t.masked :=
    calc maskOutcome (step s')
      _ = maskOutcome (step s'.masked) := (step_masked s').symm
      _ = maskOutcome (step s.masked) := by rw [hm]
      _ = maskOutcome (step s) := step_masked s
      _ = .next t.masked := by rw [hs, maskOutcome_next]
  exact next_of_maskOutcome h

/-- Settles O33: of all effects only the worker's exit leads to `Stopped` from another phase. -/
theorem stoppedIsEnteredOnlyAtTheWait : Obligations.StoppedIsEnteredOnlyAtTheWait := by
  intro s t h live dead
  cases step_effect h with
  | stop turn next blocked idle raised => exact ⟨turn, blocked, idle, raised⟩
  | push | drop | discard | raise | raiseDead | wait | wake | sleep | popLength | popPayload | decodeWrite =>
    exact absurd dead live
  | reset | popIdle | popHeader | popLengthZero | popLast | decodeRead | decodeAbandon | transmit | expire => cases dead

/-- Settles O46: each effect moves phase and sub-state along a row of the list, the invariants ruling out a sub-state
outside `Dispatching`. -/
theorem phaseMovesAlongItsTransitions : Obligations.PhaseMovesAlongItsTransitions := by
  intro s t hi h
  have hnone : s.phase ≠ .dispatching → s.wsub = .none := wsub_none_of_inv hi
  cases step_effect h with
  | reset turn => exact .inr (.inr ⟨turn, rfl, rfl⟩)
  | push | drop | discard | raise | raiseDead | wait | wake | sleep | popPayload => exact .inl rfl
  | stop turn next blocked at_ | popIdle b rest turn queue running at_ | popHeader b rest turn queue running at_
  | transmit turn at_ => simp [transitions, hnone, at_]
  | popLengthZero rest turn queue running at_ sub | popLength b rest turn queue ne running at_ sub
  | popLast b rest turn queue running at_ sub | decodeRead k turn at_ sub | decodeWrite turn at_ sub
  | decodeAbandon c turn at_ sub => simp [transitions, at_, sub]
  | expire turn running queue at_ =>
    rcases at_ with at_ | ⟨at_, hs⟩
    · simp [transitions, hnone, at_]
    · cases sub : s.wsub with
      | none => exact absurd sub hs
      | awaitLen | drain => simp [transitions, at_]

/-- Settles O47: of all effects but reset only `W-TX` touches the transmit stream. -/
theorem transmitStreamGrowsByWholeResponses : Obligations.TransmitStreamGrowsByWholeResponses := by
  intro s t h hreset
  cases step_effect h with
  | reset turn => exact absurd turn hreset
  | transmit turn at_ => exact .inr ⟨turn, at_, rfl⟩
  | _ => exact .inl rfl

/-- Settles O48: the effects that touch the queue are a push with room, the six pops, reset and the worker's exit. -/
theorem queueIsFirstInFirstOut : Obligations.QueueIsFirstInFirstOut := by
  intro s t h
  cases step_effect h with
  | push b turn => exact .inr (.inl ⟨b, turn, rfl⟩)
  | popIdle b rest turn queue | popHeader b rest turn queue | popLengthZero rest turn queue
  | popLength b rest turn queue | popLast b rest turn queue | popPayload b rest turn queue =>
    exact .inr (.inr (.inl ⟨turn, _, queue⟩))
  | reset turn => exact .inr (.inr (.inr ⟨rfl, .inl turn⟩))
  | stop turn next blocked idle raised => exact .inr (.inr (.inr ⟨rfl, .inr ⟨turn, blocked, raised⟩⟩))
  | _ => exact .inl rfl

/-! ### Settled: the served reads -/

/-- Settles O11: the value is the converter's one answer. -/
theorem readAdcLatchesOneReading : Obligations.ReadAdcLatchesOneReading := fun s =>
  ⟨(adcRead Config.hw.adcChannel s.oracles).1, _, _, _, rfl, hi8_lo8 _, fun _ _ h => adcRead_fixed h _,
    adcRead_oracles _ _⟩

/-- Settles O14: the value is the estimator's one answer. -/
theorem readRateLatchesOneEstimate : Obligations.ReadRateLatchesOneEstimate := fun s =>
  ⟨(rateEstimate s.oracles).1, _, _, _, rfl, hi8_lo8 _, fun _ _ h => rateEstimate_fixed h, rateEstimate_oracles _⟩

/-- Settles O18: the table's entries are looked up at 0 to 3, and a READ of each calls its handler. -/
theorem servedReadsAreTheTableEntries : Obligations.ServedReadsAreTheTableEntries := by
  intro r s
  refine ⟨?served, ?answer, lookupRegister_eq_none_iff r⟩
  case served =>
    rw [decodeInstr_read_served_iff, ← lookupRegister_eq_none_iff]
    exact Option.ne_none_iff_exists'
  case answer =>
    intro reg h
    obtain ⟨hmem, rfl⟩ := mem_of_lookupRegister h
    exact ⟨_, exec_read_of_mem hmem s, rfl, regRead_width_of_mem hmem _ _, rfl⟩

/-- Settles O12: the byte is the configuration's placeholder. -/
theorem readButtonLatchesOneConstantByte : Obligations.ReadButtonLatchesOneConstantByte :=
  ⟨_, rfl, fun _ => rfl⟩

/-- Settles O13: the token's two bytes in link order. -/
theorem readStatusLatchesTheToken : Obligations.ReadStatusLatchesTheToken := by
  intro s
  rw [exec_rdStatus]
  simp [State.serveRead, State.latchResponse]

/-! ### Settled: reset -/

/-- Settles O34: the reset turn runs `RESET` on the state with that turn taken. -/
theorem resetTakesAnyStateToTheResetState : Obligations.ResetTakesAnyStateToTheResetState := by
  intro s turn
  simp [step, turn, runTurn, State.resetBlock]

/-- Settles O35: each value is the reset state's own. -/
theorem resetStateAsTheSpecGivesIt : Obligations.ResetStateAsTheSpecGivesIt := by
  unfold Obligations.ResetStateAsTheSpecGivesIt
  decide

/-- Settles O43: at reset the queue is empty and the worker blocked in `Idle`. -/
theorem invariantsAtReset : Obligations.InvariantsAtReset := inv_reset

end Sys2Proof.Proofs

/-! SUPPORT. The statements about the queue and its draining (`20_memory.md`), settled, with the lemmas they need: what
is still to be sent from a state, how much work a state holds, what takes the block to a frame boundary, and which step
calls an oracle. -/

namespace Sys2Proof.Machine

/-! ### Runs of fixed turns -/

/-- No step fails (rule R215). -/
theorem exists_step_next (s : State) : ∃ t, step s = .next t := by
  rcases step_cases s with ⟨b, -, h⟩ | ⟨-, h⟩ | ⟨-, h⟩ | ⟨w, -, -, -, h⟩ | ⟨-, -, h⟩
  case inr.inr.inr.inl =>
    obtain ⟨t, ht⟩ := runWorkerStep_next w s.advanceTurn
    exact ⟨t, h.trans ht⟩
  all_goals exact ⟨_, h⟩

/-- A run of one step more: its first step, and the run from there. -/
theorem exists_step_of_runSteps_succ {n : Nat} {s t : State} (h : runSteps (n + 1) s = .next t) :
    ∃ u, step s = .next u ∧ runSteps n u = .next t := by
  obtain ⟨u, hu⟩ := exists_step_next s
  exact ⟨u, hu, by rw [← runSteps_next hu, h]⟩

/-- No run fails. -/
theorem exists_runSteps_next (n : Nat) (s : State) : ∃ t, runSteps n s = .next t := by
  induction n generalizing s with
  | zero => exact ⟨s, rfl⟩
  | succ n ih =>
    obtain ⟨u, hu⟩ := exists_step_next s
    rw [runSteps_next hu]
    exact ih u

/-- A run of `m + n` steps passes a state after `m` of them. -/
theorem exists_runSteps_of_add {m n : Nat} {s t : State} (h : runSteps (m + n) s = .next t) :
    ∃ u, runSteps m s = .next u ∧ runSteps n u = .next t := by
  obtain ⟨u, hu⟩ := exists_runSteps_next m s
  exact ⟨u, hu, by rw [← runSteps_add hu, h]⟩

/-- Induction over a run of fixed turns: what holds of the turns still to come and the state, and is kept by the step
of the first of them, holds of the last state with no turn to come. -/
theorem runSteps_induction {P : List Turn → State → Prop}
    (keeps : ∀ l s t, P (s.nextTurn :: l) s → step s = .next t → P l t)
    {l ts : List Turn} {s t : State} (hs : P l s) (hl : s.turns = l ++ ts) (hr : runSteps l.length s = .next t) :
    P [] t := by
  induction l generalizing s with
  | nil => cases hr; exact hs
  | cons u l ih =>
    obtain ⟨v, hv, hr⟩ := exists_step_of_runSteps_succ hr
    have hu : s.nextTurn = u := nextTurn_cons hl
    exact ih (keeps l s v (hu ▸ hs) hv) (turns_of_step hl hv) hr

/-! ### One rule per step, by its turn -/

/-- A byte received with room in the queue (rule R152). -/
theorem step_of_rxByte {s : State} {b : Byte} (turn : s.nextTurn = .rxByte b) (live : s.phase ≠ .stopped)
    (room : s.q.length < Config.hw.qcap) :
    step s = .next { s.advanceTurn with q := s.q ++ [b], dataReady := true } := by
  simp [step, runTurn, turn, iPush, queuePush, State.raiseDataReady, live, room]

/-- The pop of an address byte (rule R84). -/
theorem step_of_address {s : State} {b : Byte} {rest : List Byte} (turn : s.nextTurn = .worker)
    (running : s.wk = .running) (idle : s.phase = .idle) (queue : s.q = b :: rest) :
    step s = .next { s.advanceTurn with q := rest, hdr0 := b, phase := .headerPartial } := by
  rw [step_worker (next_wPop_idle running idle (by simp [queue])) (by simp [turn, grants]), runWorkerStep,
    wPop_cons (s := s.advanceTurn) queue]
  simp [takeByte, idle]

/-- The pop of a register byte (rule R84). -/
theorem step_of_register {s : State} {b : Byte} {rest : List Byte} (turn : s.nextTurn = .worker)
    (running : s.wk = .running) (at_ : s.phase = .headerPartial) (queue : s.q = b :: rest) :
    step s = .next { s.advanceTurn with q := rest, hdr1 := b, phase := .dispatching, wsub := .none } := by
  rw [step_worker (next_wPop_header running at_ (by simp [queue])) (by simp [turn, grants]), runWorkerStep,
    wPop_cons (s := s.advanceTurn) queue]
  simp [takeByte, at_]

/-- The decode of a latched header (rule R85). -/
theorem step_of_header {s : State} (turn : s.nextTurn = .worker) (at_ : s.phase = .dispatching)
    (sub : s.wsub = .none) : step s = exec (decodeInstr s.hdr0 s.hdr1) s.advanceTurn :=
  step_worker (next_wDecode at_ sub) (by simp [turn, grants])

/-- The giving up of a frame in progress at an empty queue (rule R88). -/
theorem step_of_expiry {s : State} (turn : s.nextTurn = .underfillExpired) (running : s.wk = .running)
    (busy : s.busy = true) (queue : s.q = []) : step s = .next (wExpire s.advanceTurn) :=
  step_worker (next_wExpire running busy queue) (by simp [turn, grants])

/-- A `TxReady` turn writes the response if one is latched, and otherwise nothing happens on it (rule R86). -/
theorem step_of_txReady {s : State} (turn : s.nextTurn = .txReady) :
    step s = .next (if s.phase = .responding then wTx s.advanceTurn else s.advanceTurn) := by
  rcases step_cases s with ⟨b, turn', -⟩ | ⟨turn', -⟩ | ⟨turn', -⟩ | ⟨w, hn, he, hg, h⟩ | ⟨-, waits, h⟩
  · simp [turn] at turn'
  · simp [turn] at turn'
  · simp [turn] at turn'
  · have hw : w = .wTx := by cases w <;> simp_all [grants]
    subst hw
    rw [h, if_pos ((enabled_iff .wTx s).1 he)]
    rfl
  · have silent : s.phase ≠ .responding := fun hp => by simpa [turn, grants] using waits _ (next_wTx hp)
    rw [h, if_neg silent]

/-- No step but the raising of `Stop` raises it (rule R155). -/
theorem stop_false_of_stepEffect {s t : State} (he : StepEffect s t) (clear : s.stop = false)
    (turn : s.nextTurn ≠ .stopReq) : t.stop = false := by
  cases he with
  | raise turn' => exact absurd turn' turn
  | reset | stop => rfl
  | _ => exact clear

/-! ### What is still to be sent (rule R59) -/

/-- The bytes still to be sent from a state that receives these bytes more: the latched response, and what the frame
rules give for the bytes latched, queued and to come. -/
def State.owed (s : State) (bytes : List Byte) : List Byte :=
  match s.phase, s.wsub with
  | .idle, _ => serveBytes Config.hw .idle s.oracles (s.q ++ bytes)
  | .headerPartial, _ => serveBytes Config.hw (.header s.hdr0) s.oracles (s.q ++ bytes)
  | .dispatching, .none => serveBytes Config.hw (.header s.hdr0) s.oracles (s.hdr1 :: (s.q ++ bytes))
  | .dispatching, .awaitLen => serveBytes Config.hw .awaitLen s.oracles (s.q ++ bytes)
  | .dispatching, .drain => serveBytes Config.hw (.drain s.drainCnt) s.oracles (s.q ++ bytes)
  | .responding, _ => s.resp ++ serveBytes Config.hw .idle s.oracles (s.q ++ bytes)
  | .stopped, _ => []

theorem owed_idle {s : State} (hp : s.phase = .idle) (bytes : List Byte) :
    s.owed bytes = serveBytes Config.hw .idle s.oracles (s.q ++ bytes) := by
  simp [State.owed, hp]

theorem owed_headerPartial {s : State} (hp : s.phase = .headerPartial) (bytes : List Byte) :
    s.owed bytes = serveBytes Config.hw (.header s.hdr0) s.oracles (s.q ++ bytes) := by
  simp [State.owed, hp]

theorem owed_undecoded {s : State} (hp : s.phase = .dispatching) (hs : s.wsub = .none) (bytes : List Byte) :
    s.owed bytes = serveBytes Config.hw (.header s.hdr0) s.oracles (s.hdr1 :: (s.q ++ bytes)) := by
  simp [State.owed, hp, hs]

theorem owed_awaitLen {s : State} (hp : s.phase = .dispatching) (hs : s.wsub = .awaitLen) (bytes : List Byte) :
    s.owed bytes = serveBytes Config.hw .awaitLen s.oracles (s.q ++ bytes) := by
  simp [State.owed, hp, hs]

theorem owed_drain {s : State} (hp : s.phase = .dispatching) (hs : s.wsub = .drain) (bytes : List Byte) :
    s.owed bytes = serveBytes Config.hw (.drain s.drainCnt) s.oracles (s.q ++ bytes) := by
  simp [State.owed, hp, hs]

theorem owed_responding {s : State} (hp : s.phase = .responding) (bytes : List Byte) :
    s.owed bytes = s.resp ++ serveBytes Config.hw .idle s.oracles (s.q ++ bytes) := by
  simp [State.owed, hp]

/-- A received byte that is queued is no longer to come. -/
theorem owed_push (s : State) (b : Byte) (bytes : List Byte) :
    State.owed { s with q := s.q ++ [b], dataReady := true } bytes = s.owed (b :: bytes) := by
  simp [State.owed]

@[simp] theorem serveBytes_idle (c : Config) (o : Oracles) (b : Byte) (rest : List Byte) :
    serveBytes c .idle o (b :: rest) = serveBytes c (.header b) o rest := rfl

@[simp] theorem serveBytes_header (c : Config) (a : Byte) (o : Oracles) (b : Byte) (rest : List Byte) :
    serveBytes c (.header a) o (b :: rest) = (answer c (decodeInstr a b) o).1 ++
      serveBytes c (afterHeader (decodeInstr a b)) (answer c (decodeInstr a b) o).2 rest := rfl

@[simp] theorem serveBytes_awaitLen (c : Config) (o : Oracles) (b : Byte) (rest : List Byte) :
    serveBytes c .awaitLen o (b :: rest) = serveBytes c (if b = 0#8 then .idle else .drain b) o rest := rfl

@[simp] theorem serveBytes_drain (c : Config) (left : Byte) (o : Oracles) (b : Byte) (rest : List Byte) :
    serveBytes c (.drain left) o (b :: rest) =
      serveBytes c (if left - 1#8 = 0#8 then .idle else .drain (left - 1#8)) o rest := rfl

/-- Once nothing is left to do, nothing is owed. -/
theorem owed_of_drained {s : State} (h : s.Drained) : s.owed [] = [] := by
  obtain ⟨hq, hresp, hdec⟩ := h
  cases hp : s.phase <;> cases hs : s.wsub <;> simp_all [State.owed, serveBytes]

/-- One step of a live block on a turn that is no stop, reset or expiry, with room for the byte it may receive: the
block stays live, and what is sent and what is owed make up the same bytes as before. -/
theorem owed_of_stepEffect {s t : State} (he : StepEffect s t) (live : s.phase ≠ .stopped) (clear : s.stop = false)
    (room : ∀ b, s.nextTurn = .rxByte b → s.q.length < Config.hw.qcap)
    (calm : s.nextTurn ≠ .stopReq ∧ s.nextTurn ≠ .reset ∧ s.nextTurn ≠ .underfillExpired) (l : List Turn) :
    t.phase ≠ .stopped ∧ t.tx ++ t.owed (rxBytes l) = s.tx ++ s.owed (rxBytes (s.nextTurn :: l)) := by
  obtain ⟨noStop, noReset, noExpiry⟩ := calm
  cases he with
  | push b turn =>
    rw [turn]
    exact ⟨live, congrArg (s.tx ++ ·) (owed_push s b _)⟩
  | drop b turn _ full => exact absurd (room b turn) full
  | discard b turn dead => exact absurd dead live
  | raise turn | raiseDead turn => exact absurd turn noStop
  | reset turn => exact absurd turn noReset
  | expire turn => exact absurd turn noExpiry
  | stop _ _ _ _ raised => simp [clear] at raised
  | wait turn => rcases turn with turn | turn | turn <;> rw [turn] <;> exact ⟨live, rfl⟩
  | wake turn | sleep turn => rw [turn]; exact ⟨live, rfl⟩
  | popIdle b rest turn queue _ at_ =>
    exact ⟨by simp, by simp [owed_idle at_, owed_headerPartial, queue, turn, rxBytes]⟩
  | popHeader b rest turn queue _ at_ =>
    exact ⟨by simp, by simp [owed_headerPartial at_, owed_undecoded, queue, turn, rxBytes]⟩
  | popLengthZero rest turn queue _ at_ sub =>
    exact ⟨by simp, by simp [owed_awaitLen at_ sub, owed_idle, queue, turn, rxBytes]⟩
  | popLength b rest turn queue ne _ at_ sub =>
    exact ⟨live, by simp [owed_awaitLen at_ sub, owed_drain, at_, ne, queue, turn, rxBytes]⟩
  | popLast b rest turn queue _ at_ sub last =>
    exact ⟨by simp, by simp [owed_drain at_ sub, owed_idle, last, queue, turn, rxBytes]⟩
  | popPayload b rest turn queue _ at_ sub more =>
    exact ⟨live, by simp [owed_drain, at_, sub, more, queue, turn, rxBytes]⟩
  | decodeRead k turn at_ sub _ write value =>
    have after := owed_responding (State.serveRead_phase Config.hw k s.advanceTurn) (rxBytes l)
    exact ⟨by simp, by simp [owed_undecoded at_ sub, after, afterHeader, write, value, turn, rxBytes]⟩
  | decodeWrite turn at_ sub _ write value =>
    have after := owed_awaitLen (s := s.advanceTurn.awaitLength) at_ rfl (rxBytes l)
    exact ⟨live, by simp [owed_undecoded at_ sub, after, afterHeader, write, value, turn, rxBytes]⟩
  | decodeAbandon c turn at_ sub _ write value =>
    have after := owed_idle (State.abandon_phase c s.advanceTurn) (rxBytes l)
    exact ⟨by simp, by simp [owed_undecoded at_ sub, after, afterHeader, write, value, turn, rxBytes]⟩
  | transmit turn at_ =>
    have after := owed_idle (wTx_phase s.advanceTurn) (rxBytes l)
    exact ⟨by simp, by simp [owed_responding at_, after, turn, rxBytes]⟩

/-- A run on its course: the block is live, the turns to come bring no stop, no reset, no expiry and no dropped byte,
and what is sent and what is owed for them make up `total`. -/
structure OnCourse (total : List Byte) (l : List Turn) (s : State) : Prop where
  live : s.phase ≠ .stopped
  clear : s.stop = false
  room : s.NoDrop l.length
  calm : ∀ u ∈ l, u ≠ .stopReq ∧ u ≠ .reset ∧ u ≠ .underfillExpired
  sum : s.tx ++ s.owed (rxBytes l) = total

/-- A step keeps a run on its course. -/
theorem OnCourse.step {total : List Byte} {l : List Turn} {s t : State} (h : OnCourse total (s.nextTurn :: l) s)
    (hs : step s = .next t) : OnCourse total l t := by
  obtain ⟨room, later⟩ := h.room
  have calm := List.forall_mem_cons.1 h.calm
  have he := step_effect hs
  obtain ⟨live, sum⟩ := owed_of_stepEffect he h.live h.clear room calm.1 l
  exact ⟨live, stop_false_of_stepEffect he h.clear calm.1.1, later t hs, calm.2, sum.trans h.sum⟩

/-! ### How much work a state holds (rule R93) -/

/-- How many pairs of a worker turn and a `TxReady` turn a state needs at most until nothing is left to do: a queued
byte may be popped, decoded and answered, and the worker may have to be woken first. -/
def State.work (s : State) : Nat :=
  3 * s.q.length + (if s.wk = .blocked ∧ s.q ≠ [] then 1 else 0) +
    (if s.phase = .dispatching ∧ s.wsub = .none then 2 else 0) + (if s.phase = .responding then 1 else 0)

theorem work_le (s : State) : s.work ≤ 3 * s.q.length + 4 := by
  unfold State.work
  split <;> split <;> split <;> omega

theorem work_eq_zero_iff (s : State) : s.work = 0 ↔ s.Drained := by
  cases hq : s.q <;> simp [State.work, State.Drained, hq, and_comm]

/-- Wherever work is left and no response is latched, the worker is offered a step that needs no event: a blocked
worker with a byte queued has `DataReady` raised, which is the invariant that rules out a lost wake-up. -/
theorem exists_next_of_work {s : State} (hi : s.Inv) (clear : s.stop = false) (left : s.work ≠ 0)
    (silent : s.phase ≠ .responding) : ∃ w, nextWorkerStep s = some w ∧ grants .worker w = true := by
  obtain ⟨-, hblocked, -, -, hwake, hstopped⟩ := hi
  have live : s.phase ≠ .stopped := fun hp => left (by simp [State.work, hstopped hp, hp])
  by_cases undecoded : s.phase = .dispatching ∧ s.wsub = .none
  · exact ⟨.wDecode, next_wDecode undecoded.1 undecoded.2, rfl⟩
  have queued : s.q ≠ [] := fun hq => left (by simp [State.work, hq, undecoded, silent])
  cases hw : s.wk with
  | blocked =>
    have idle : s.phase = .idle := (hblocked hw).resolve_right live
    exact ⟨.wWake, next_wWake hw idle clear (hwake live hw queued), rfl⟩
  | running =>
    refine ⟨.wPop, ?_, rfl⟩
    cases hp : s.phase with
    | idle => exact next_wPop_idle hw hp queued
    | headerPartial => exact next_wPop_header hw hp queued
    | dispatching => exact next_wPop_write hw hp (fun hs => undecoded ⟨hp, hs⟩) queued
    | responding => exact absurd hp silent
    | stopped => exact absurd hp live

/-- A worker turn does a piece of the work, or waits for the transport with a response latched. -/
theorem work_of_worker_turn {s t : State} (he : StepEffect s t) (hi : s.Inv) (clear : s.stop = false)
    (turn : s.nextTurn = .worker) : t.work ≤ s.work - 1 ∨ (s.phase = .responding ∧ t = s.advanceTurn) := by
  have hrun : s.phase = .dispatching → s.wk = .running := fun hp => running_of_inv hi (by simp [hp])
  cases he with
  | wait _ waits =>
    by_cases hp : s.phase = .responding
    · exact .inr ⟨hp, rfl⟩
    · have done : s.work = 0 := by
        by_contra left
        obtain ⟨w, hn, hg⟩ := exists_next_of_work hi clear left hp
        rw [← turn, waits w hn] at hg
        cases hg
      exact .inl (by change s.work ≤ _; omega)
  | push _ turn' | drop _ turn' | discard _ turn' | raise turn' | raiseDead turn' | reset turn' | transmit turn'
  | expire turn' => rw [turn] at turn'; cases turn'
  | stop _ _ _ _ raised => simp [clear] at raised
  | wake _ _ blocked idle =>
    left
    cases hq : s.q <;> simp [State.work, hq, idle, blocked]
  | sleep _ _ queue at_ => left; simp [State.work, queue, at_]
  | popIdle b rest _ queue running at_ | popHeader b rest _ queue running at_ =>
    left
    simp [State.work, queue, running, at_]
    omega
  | popLengthZero rest _ queue running at_ sub | popLength b rest _ queue ne running at_ sub
  | popLast b rest _ queue running at_ sub | popPayload b rest _ queue running at_ sub =>
    left
    simp [State.work, queue, running, at_, sub]
    omega
  | decodeRead k _ at_ sub | decodeWrite _ at_ sub | decodeAbandon c _ at_ sub =>
    left
    simp [State.work, hrun at_, at_, sub]

/-- A `TxReady` turn makes no work, and does a piece of it where a response is latched. -/
theorem work_of_txReady_turn {s t : State} (hs : step s = .next t) (hi : s.Inv) (turn : s.nextTurn = .txReady) :
    t.work ≤ s.work ∧ (s.phase = .responding → t.work ≤ s.work - 1) := by
  cases (step_of_txReady turn).symm.trans hs
  by_cases hp : s.phase = .responding
  · have running : s.wk = .running := running_of_inv hi (by simp [hp])
    simp [State.work, hp, running]
  · simp [State.work, hp]

/-- One pair of fair turns does at least one piece of the work. -/
theorem exists_run_fair_pair {s : State} {ts : List Turn} (hi : s.Inv) (clear : s.stop = false)
    (turns : s.turns = .worker :: .txReady :: ts) :
    ∃ t, runSteps 2 s = .next t ∧ t.Inv ∧ t.stop = false ∧ t.turns = ts ∧ t.work ≤ s.work - 1 := by
  obtain ⟨u, hu⟩ := exists_step_next s
  obtain ⟨t, ht⟩ := exists_step_next u
  have eu := step_effect hu
  have et := step_effect ht
  have worker : s.nextTurn = .worker := nextTurn_cons turns
  have turns' := turns_of_step turns hu
  have txReady : u.nextTurn = .txReady := nextTurn_cons turns'
  have hiu := inv_of_stepEffect hi eu
  have clear' := stop_false_of_stepEffect eu clear (by simp [worker])
  have second := work_of_txReady_turn ht hiu txReady
  refine ⟨t, by rw [runSteps_next hu, runSteps_next ht, runSteps_zero], inv_of_stepEffect hiu et,
    stop_false_of_stepEffect et clear' (by simp [txReady]), turns_of_step turns' ht, ?_⟩
  rcases work_of_worker_turn eu hi clear worker with first | ⟨hp, rfl⟩
  · exact second.1.trans first
  · exact second.2 hp

/-- As many pairs of fair turns as there is work leave none. -/
theorem exists_run_fairTurns {n : Nat} {s : State} {ts : List Turn} (hi : s.Inv) (clear : s.stop = false)
    (turns : s.turns = fairTurns n ++ ts) (enough : s.work ≤ n) :
    ∃ t, runSteps (2 * n) s = .next t ∧ t.work = 0 ∧ t.turns = ts := by
  induction n generalizing s with
  | zero => exact ⟨s, rfl, Nat.le_zero.1 enough, turns⟩
  | succ n ih =>
    obtain ⟨u, hu, hiu, clearu, turnsu, less⟩ := exists_run_fair_pair hi clear turns
    obtain ⟨t, ht, done⟩ := ih hiu clearu turnsu (by omega)
    exact ⟨t, by rw [Nat.mul_succ, Nat.add_comm, runSteps_add hu, ht], done⟩

/-! ### Frame boundaries (rules R122, R204) -/

/-- The block is at a frame boundary: nothing is queued, and the next byte, if it is taken at all, is taken as an
address byte. -/
def State.AtBoundary (s : State) : Prop := s.q = [] ∧ (s.phase = .idle ∨ s.phase = .stopped)

theorem inv_of_cleanEntry {s : State} (h : s.CleanEntry) : s.Inv := by
  obtain ⟨queue, clear, down, idle, blocked, sub, resp⟩ := h
  simp [State.Inv, queue, idle, sub, resp]

theorem inv_of_runSteps {n : Nat} {s t : State} (hi : s.Inv) (hr : runSteps n s = .next t) : t.Inv := by
  induction n generalizing s with
  | zero => cases hr; exact hi
  | succ n ih =>
    obtain ⟨u, hu, hr⟩ := exists_step_of_runSteps_succ hr
    exact ih (inv_of_stepEffect hi (step_effect hu)) hr

/-- Turns that bring no byte start with none that does. -/
theorem rxBytes_cons_eq_nil {u : Turn} {l : List Turn} (h : rxBytes (u :: l) = []) :
    (∀ b, u ≠ .rxByte b) ∧ rxBytes l = [] := by
  cases u with
  | rxByte b => cases h
  | _ => exact ⟨nofun, h⟩

/-- Only a received byte takes the block off a frame boundary. -/
theorem atBoundary_of_stepEffect {s t : State} (he : StepEffect s t) (hb : s.AtBoundary)
    (silent : ∀ b, s.nextTurn ≠ .rxByte b) : t.AtBoundary := by
  obtain ⟨queue, place⟩ := id hb
  cases he with
  | push b turn | drop b turn | discard b turn => exact absurd turn (silent b)
  | raise | raiseDead | wait | wake | sleep => exact hb
  | reset => exact ⟨rfl, .inl rfl⟩
  | stop => exact ⟨rfl, .inr rfl⟩
  | popIdle _ _ _ queue' | popHeader _ _ _ queue' | popLengthZero _ _ queue' | popLength _ _ _ queue'
  | popLast _ _ _ queue' | popPayload _ _ _ queue' => simp [queue] at queue'
  | decodeRead _ _ at_ | decodeWrite _ at_ | decodeAbandon _ _ at_ | transmit _ at_ => simp [at_] at place
  | expire => exact ⟨queue, .inl rfl⟩

/-- An expiry once nothing is left to do takes the block to a frame boundary (rule R88). -/
theorem atBoundary_of_expiry {s t : State} (hs : step s = .next t) (hi : s.Inv) (turn : s.nextTurn = .underfillExpired)
    (drained : s.Drained) : t.AtBoundary := by
  obtain ⟨queue, silent, decoded⟩ := drained
  by_cases place : s.phase = .idle ∨ s.phase = .stopped
  · exact atBoundary_of_stepEffect (step_effect hs) ⟨queue, place⟩ (by simp [turn])
  · rw [not_or] at place
    have busy : s.busy = true := by
      rw [busy_iff]
      cases hp : s.phase <;> simp_all
    cases (step_of_expiry turn (running_of_inv hi place) busy queue).symm.trans hs
    exact ⟨queue, .inl rfl⟩

/-- A silence that the block is at a boundary in, or that an expiry is still to fall in. -/
structure Settling (l : List Turn) (s : State) : Prop where
  inv : s.Inv
  silent : rxBytes l = []
  boundary : s.AtBoundary ∨ s.ExpiryFalls l.length

/-- A silence stays one step by step, and the expiry that falls brings the boundary. -/
theorem Settling.step {l : List Turn} {s t : State} (h : Settling (s.nextTurn :: l) s) (hs : step s = .next t) :
    Settling l t := by
  have he := step_effect hs
  obtain ⟨silent, later⟩ := rxBytes_cons_eq_nil h.silent
  refine ⟨inv_of_stepEffect h.inv he, later, ?_⟩
  rcases h.boundary with hb | ⟨turn, drained⟩ | ⟨u, hu, falls⟩
  · exact .inl (atBoundary_of_stepEffect he hb silent)
  · exact .inl (atBoundary_of_expiry hs h.inv turn drained)
  · cases hu.symm.trans hs
    exact .inr falls

/-! ### Two bytes make at most one response -/

/-- How many bytes of a header are latched and not yet decoded. -/
def headerBytes : Phase → Wsub → Nat
  | .headerPartial, _ => 1
  | .dispatching, .none => 2
  | _, _ => 0

/-- How many bytes a response may still come of: those of an undecoded header, those queued, and those to come. -/
def State.unspent (s : State) (l : List Turn) : Nat :=
  s.q.length + headerBytes s.phase s.wsub + (rxBytes l).length

/-- A step makes none of these bytes, and uses two of them up where it latches a response. -/
theorem unspent_of_stepEffect {s t : State} (he : StepEffect s t) (l : List Turn) :
    t.unspent l ≤ s.unspent (s.nextTurn :: l) ∧
      (t.phase = .responding → s.phase ≠ .responding → t.unspent l + 2 ≤ s.unspent (s.nextTurn :: l)) := by
  cases he with
  | push b turn =>
    refine ⟨?_, fun hp hn => absurd hp hn⟩
    simp [State.unspent, turn, rxBytes]
    omega
  | drop b turn | discard b turn =>
    exact ⟨by simp [State.unspent, turn, rxBytes], fun hp hn => absurd hp hn⟩
  | raise turn | raiseDead turn | wake turn | sleep turn =>
    exact ⟨by simp [State.unspent, turn, rxBytes], fun hp hn => absurd hp hn⟩
  | wait turn =>
    refine ⟨?_, fun hp hn => absurd hp hn⟩
    rcases turn with turn | turn | turn <;> simp [State.unspent, turn, rxBytes]
  | reset turn | stop turn | expire turn =>
    refine ⟨?_, by simp⟩
    simp [State.unspent, turn, rxBytes, headerBytes]
  | popIdle b rest turn queue running at_ | popHeader b rest turn queue running at_ =>
    refine ⟨?_, by simp⟩
    simp [State.unspent, turn, rxBytes, headerBytes, queue, at_]
  | popLengthZero rest turn queue running at_ sub | popLength b rest turn queue ne running at_ sub
  | popLast b rest turn queue running at_ sub | popPayload b rest turn queue running at_ sub =>
    refine ⟨?_, by simp [at_]⟩
    simp [State.unspent, turn, rxBytes, headerBytes, queue, at_, sub]
  | decodeRead k turn at_ sub | decodeWrite turn at_ sub | decodeAbandon c turn at_ sub =>
    simp [State.unspent, turn, rxBytes, headerBytes, at_, sub] <;> omega
  | transmit turn at_ => exact ⟨by simp [State.unspent, turn, rxBytes, headerBytes, at_], by simp⟩

/-- A run with two bytes to come at its start, where the transmit stream has the length `sent`: either nothing has been
sent yet, and a response is latched only once both bytes are used up, or the block is at a boundary and no byte is to
come. -/
def Answering (sent : Nat) (l : List Turn) (s : State) : Prop :=
  (s.tx.length ≤ sent ∧ s.unspent l ≤ 2 ∧ (s.phase = .responding → s.unspent l = 0)) ∨
    (s.AtBoundary ∧ rxBytes l = [])

/-- With no byte queued or to come, the writing of the latched response takes the block to a boundary. -/
theorem atBoundary_of_transmit {s : State} {l : List Turn} (turn : s.nextTurn = .txReady)
    (used : s.unspent (s.nextTurn :: l) = 0) : (wTx s.advanceTurn).AtBoundary ∧ rxBytes l = [] := by
  simp only [State.unspent, turn, rxBytes, Nat.add_eq_zero_iff, List.length_eq_zero_iff] at used
  exact ⟨⟨used.1.1, .inl rfl⟩, used.2⟩

/-- A step of a run keeps what `Answering` says of it. -/
theorem Answering.step {sent : Nat} {l : List Turn} {s t : State} (h : Answering sent (s.nextTurn :: l) s)
    (hs : step s = .next t) : Answering sent l t := by
  have he := step_effect hs
  rcases h with ⟨unsent, few, latched⟩ | ⟨hb, silent⟩
  · obtain ⟨less, pair⟩ := unspent_of_stepEffect he l
    have quiet (hle : t.tx.length ≤ s.tx.length) : Answering sent l t := by
      refine .inl ⟨hle.trans unsent, less.trans few, fun hp => ?_⟩
      by_cases hn : s.phase = .responding
      · have := latched hn; omega
      · have := pair hp hn; omega
    cases he with
    | transmit turn at_ => exact .inr (atBoundary_of_transmit turn (latched at_))
    | reset => exact quiet (Nat.zero_le _)
    | _ => exact quiet le_rfl
  · obtain ⟨silent, later⟩ := rxBytes_cons_eq_nil silent
    exact .inr ⟨atBoundary_of_stepEffect he hb silent, later⟩

/-- The two bytes of a READ are all that a block at a boundary needs to receive for its answer: once the response has
gone out the block is at a boundary again, wherever in the turns the bytes, the stops, the resets and the expiries
fell. -/
theorem atBoundary_of_answered {x : Exchange} {s t : State} {ts : List Turn} (hb : s.AtBoundary)
    (turns : s.turns = x.turns ++ ts) (hr : runSteps x.turns.length s = .next t)
    (received : rxBytes x.turns = x.request.bytes) (answered : x.Answered s t) : t.AtBoundary := by
  obtain ⟨reg, r, request, found, longer⟩ := answered
  obtain ⟨queue, place⟩ := hb
  have two : (rxBytes x.turns).length = 2 := by rw [received, request]; rfl
  have width : 0 < r.width := by
    have key : ∀ r ∈ registerTable, 0 < r.width := by decide
    exact key r (mem_of_lookupRegister found).1
  have start : Answering s.tx.length x.turns s := by
    refine .inl ⟨le_rfl, ?_, ?_⟩ <;> rcases place with place | place <;>
      simp [State.unspent, headerBytes, queue, place, two]
  rcases runSteps_induction (fun _ _ _ => Answering.step) start turns hr with ⟨unsent, -⟩ | ⟨hb, -⟩
  · omega
  · exact hb

/-- After a silence in which an expiry fell the block is at a boundary. -/
theorem atBoundary_of_silence {l ts : List Turn} {s t : State} (hi : s.Inv) (turns : s.turns = l ++ ts)
    (hr : runSteps l.length s = .next t) (silent : rxBytes l = []) (falls : s.ExpiryFalls l.length) :
    t.AtBoundary :=
  (runSteps_induction (fun _ _ _ => Settling.step) ⟨hi, silent, .inr falls⟩ turns hr).boundary.resolve_right id

/-- One request, whichever way it ends, takes the block from a boundary to a boundary. -/
theorem atBoundary_of_exchange {x : Exchange} {s m t : State} {ts : List Turn} (hi : s.Inv) (hb : s.AtBoundary)
    (turns : s.turns = x.turns ++ ts) (arrives : runSteps x.arrival.length s = .next m)
    (ends : runSteps x.silence.length m = .next t) (received : rxBytes x.turns = x.request.bytes)
    (silent : rxBytes x.silence = []) (answered : x.completion = .response → x.Answered s t)
    (falls : x.completion ≠ .response → m.ExpiryFalls x.silence.length) : t.AtBoundary := by
  by_cases response : x.completion = .response
  · exact atBoundary_of_answered hb turns (by rw [Exchange.turns_length, runSteps_add arrives, ends]) received
      (answered response)
  · rw [Exchange.turns, List.append_assoc] at turns
    exact atBoundary_of_silence (inv_of_runSteps hi arrives) (turns_of_runSteps turns arrives) ends silent
      (falls response)

/-- The premises of rule R214 that the statement on frame boundaries takes keep a block that starts at a boundary at
one after every request. -/
theorem atBoundary_of_exchanges {xs : List Exchange} {s t : State} {ts : List Turn} (hi : s.Inv) (hb : s.AtBoundary)
    (turns : s.turns = exchangeTurns xs ++ ts) (received : ∀ x ∈ xs, rxBytes x.turns = x.request.bytes)
    (outstanding : s.OneOutstanding xs) (expiry : s.ExpiryInSilence xs)
    (hr : runSteps (exchangeTurns xs).length s = .next t) : t.AtBoundary := by
  induction xs generalizing s with
  | nil => cases hr; exact hb
  | cons x xs ih =>
    rw [exchangeTurns_cons, List.append_assoc] at turns
    rw [exchangeTurns_cons, List.length_append] at hr
    obtain ⟨u, hu, hr⟩ := exists_runSteps_of_add hr
    obtain ⟨m, arrives, ends⟩ := exists_runSteps_of_add (x.turns_length ▸ hu)
    obtain ⟨answered, -, outstanding⟩ := outstanding u hu
    obtain ⟨silent, expiry⟩ := expiry
    obtain ⟨falls, expiry⟩ := expiry m arrives
    have received := List.forall_mem_cons.1 received
    exact ih (inv_of_runSteps hi hu)
      (atBoundary_of_exchange hi hb turns arrives ends received.1 silent answered falls)
      (turns_of_runSteps turns hu) received.2 outstanding (expiry u ends) hr

/-! ### A status read after an expiry (rule R122) -/

/-- The two pops of a header at the head of the queue of a running worker. -/
theorem runSteps_header_pops {s : State} {a r : Byte} {rest : List Byte} {ts : List Turn} (idle : s.phase = .idle)
    (running : s.wk = .running) (queue : s.q = a :: r :: rest) (turns : s.turns = .worker :: .worker :: ts) :
    runSteps 2 s = .next { s with
      q := rest, hdr0 := a, hdr1 := r, phase := .dispatching, wsub := .none, turns := ts,
      turnCount := s.turnCount + 2 } := by
  have second := step_of_register
    (s := { s.advanceTurn with q := r :: rest, hdr0 := a, phase := .headerPartial }) (b := r) (rest := rest)
    (by simp [State.nextTurn, turns]) running rfl rfl
  rw [runSteps_next (step_of_address (nextTurn_cons turns) running idle queue), runSteps_next second]
  simp [State.advanceTurn, turns]

/-- The decode of a served READ and the writing of its response: the register's value, latched at the decode, is
appended to the transmit stream (rules R86, R100). -/
theorem runSteps_serve {s : State} {ts : List Turn} {k : Semantics} (at_ : s.phase = .dispatching)
    (sub : s.wsub = .none) (turns : s.turns = .worker :: .txReady :: ts)
    (served : ∀ u, exec (decodeInstr s.hdr0 s.hdr1) u = .next (u.serveRead Config.hw k)) :
    runSteps 2 s = .next { s with
      phase := .idle, resp := [], tx := s.tx ++ (regRead Config.hw k s.oracles).1, turns := ts,
      turnCount := s.turnCount + 2, oracles := (regRead Config.hw k s.oracles).2 } := by
  have first := (step_of_header (nextTurn_cons turns) at_ sub).trans (served _)
  have second := step_of_txReady (s := s.advanceTurn.serveRead Config.hw k) (by simp [State.nextTurn, turns])
  rw [runSteps_next first, runSteps_next second]
  simp [State.serveRead, State.latchResponse, wTx, State.txWrite, State.advanceTurn, turns]

/-- A whole served READ frame at the head of the queue of a running worker is answered in four steps (rule R91). -/
theorem runSteps_served_read {s : State} {a r : Byte} {rest : List Byte} {ts : List Turn} {k : Semantics}
    (idle : s.phase = .idle) (running : s.wk = .running) (queue : s.q = a :: r :: rest)
    (turns : s.turns = .worker :: .worker :: .worker :: .txReady :: ts)
    (served : ∀ u, exec (decodeInstr a r) u = .next (u.serveRead Config.hw k)) :
    runSteps 4 s = .next { s with
      q := rest, hdr0 := a, hdr1 := r, wsub := .none, resp := [], tx := s.tx ++ (regRead Config.hw k s.oracles).1,
      turns := ts, turnCount := s.turnCount + 4, oracles := (regRead Config.hw k s.oracles).2 } := by
  have serve := runSteps_serve (s := { s with
    q := rest, hdr0 := a, hdr1 := r, phase := .dispatching, wsub := .none, turns := .worker :: .txReady :: ts,
    turnCount := s.turnCount + 2 }) rfl rfl rfl served
  rw [runSteps_add (n := 2) (runSteps_header_pops idle running queue turns), serve, idle]

/-! ### Which step calls an oracle (rules R47, R52) -/

/-- Only a header with the address byte `0xC8` is a served read (rule R67). -/
theorem address_of_served_read {a r : Byte} (h : (decodeInstr a r).isServedRead = true) : a = 0xC8#8 := by
  by_cases own : a.extractLsb' 0 7 = 0x48#7
  · rcases own_addressByte own with rfl | rfl
    · rfl
    · cases h
  · rw [decodeInstr_foreign own] at h
    cases h

theorem decodeInstr_eq_rdAdc_iff (a r : Byte) : decodeInstr a r = .rdAdc ↔ a = 0xC8#8 ∧ r = 0#8 := by
  refine ⟨fun h => ?_, fun ⟨ha, hr⟩ => by rw [ha, hr]; rfl⟩
  obtain rfl := address_of_served_read (a := a) (r := r) (by rw [h]; rfl)
  rw [decodeInstr_read] at h
  split_ifs at h with hr
  exact ⟨rfl, hr⟩

theorem decodeInstr_eq_rdRate_iff (a r : Byte) : decodeInstr a r = .rdRate ↔ a = 0xC8#8 ∧ r = 3#8 := by
  refine ⟨fun h => ?_, fun ⟨ha, hr⟩ => by rw [ha, hr]; rfl⟩
  obtain rfl := address_of_served_read (a := a) (r := r) (by rw [h]; rfl)
  rw [decodeInstr_read] at h
  split_ifs at h with _ _ _ hr
  exact ⟨rfl, hr⟩

/-- An operation leaves the oracles as the frame rules' answer does. -/
theorem oracles_of_exec {i : Instr} {s t : State} (h : exec i s = .next t) :
    t.oracles = (answer Config.hw i s.oracles).2 := by
  rcases exec_cases i s with ⟨k, e, -, -, value⟩ | ⟨e, -, -, value⟩ | ⟨c, e, -, -, value⟩
  all_goals
    cases e.symm.trans h
    rw [value]
    rfl

/-- Of all operations `RD_ADC` alone calls the converter, `RD_RATE` alone the estimator. -/
theorem answer_oracles_cases (i : Instr) (o : Oracles) :
    (i = .rdAdc ∧ (answer Config.hw i o).2 = (adcRead Config.hw.adcChannel o).2) ∨
    (i = .rdRate ∧ (answer Config.hw i o).2 = (rateEstimate o).2) ∨
    (i ≠ .rdAdc ∧ i ≠ .rdRate ∧ (answer Config.hw i o).2 = o) := by
  cases i
  case rdAdc => exact .inl ⟨rfl, rfl⟩
  case rdRate => exact .inr (.inl ⟨rfl, rfl⟩)
  all_goals exact .inr (.inr ⟨nofun, nofun, rfl⟩)

/-- A step that decodes no header calls no oracle. -/
theorem oracles_of_not_decode {s t : State} (he : StepEffect s t)
    (other : ¬ (s.nextTurn = .worker ∧ s.phase = .dispatching ∧ s.wsub = .none)) : t.oracles = s.oracles := by
  cases he with
  | decodeRead k turn at_ sub | decodeWrite turn at_ sub | decodeAbandon c turn at_ sub =>
    exact absurd ⟨turn, at_, sub⟩ other
  | _ => rfl

end Sys2Proof.Machine

namespace Sys2Proof.Proofs

open Sys2Proof.Machine

/-- Settles O52: what is sent and what is owed make up the frame rules' output at the clean entry, and every step keeps
the sum. -/
theorem frameRulesGiveTheTransmitStream : Obligations.FrameRulesGiveTheTransmitStream := by
  intro n s t entry hn stop reset expiry room hr
  obtain ⟨queue, clear, -, idle, -⟩ := entry
  have hlen : (s.turns.take n).length = n := List.length_take_of_le hn
  have start : OnCourse (s.tx ++ serveBytes Config.hw .idle s.oracles (rxBytes (s.turns.take n))) (s.turns.take n) s :=
    { live := by simp [idle]
      clear := clear
      room := by rwa [hlen]
      calm := by simp_all [noStop, noReset, noExpiry]
      sum := by rw [owed_idle idle, queue, List.nil_append] }
  have sum := (runSteps_induction (fun _ _ _ => OnCourse.step) start (List.take_append_drop n _).symm
    (by rwa [hlen])).sum
  refine ⟨⟨_, sum⟩, fun drained => ?_⟩
  rwa [rxBytes, owed_of_drained drained, List.append_nil] at sum

/-- Settles O53: both streams are the frame rules' output on the same bytes (O52). -/
theorem transmitStreamDoesNotDependOnTheSchedule : Obligations.TransmitStreamDoesNotDependOnTheSchedule := by
  intro n m s s' t t' entry entry' tx oracles hn hm stop reset expiry stop' reset' expiry' bytes room room' hr hr'
    drained drained'
  have first := (frameRulesGiveTheTransmitStream n s t entry hn stop reset expiry room hr).2 drained
  have second := (frameRulesGiveTheTransmitStream m s' t' entry' hm stop' reset' expiry' room' hr').2 drained'
  rw [first, second, tx, oracles, bytes]

/-- Settles O55: each pair of fair turns does a piece of the work, of which there are at most three for each queued
byte and four besides. -/
theorem fairTurnsDrainTheQueue : Obligations.FairTurnsDrainTheQueue := by
  intro n s ts hi clear turns enough
  obtain ⟨t, ht, done, rest⟩ := exists_run_fairTurns hi clear turns ((work_le s).trans enough)
  exact ⟨t, ht, (work_eq_zero_iff t).1 done, rest⟩

/-- Settles O60: at the clean entry the block is at a boundary, and every request takes it from one to another: an
answered one because its two bytes are used up, an unanswered one by the expiry in its silence. -/
theorem everyExchangeEndsAtAFrameBoundary : Obligations.EveryExchangeEndsAtAFrameBoundary := by
  intro xs s ts entry turns whole order outstanding expiry t hr
  obtain ⟨queue, -, -, idle, -⟩ := id entry
  have received : ∀ x ∈ xs, rxBytes x.turns = x.request.bytes := fun x hx =>
    (order x hx).trans ((wholeFrames_singleton _ _).1 (whole x hx)).2
  exact atBoundary_of_exchanges (inv_of_cleanEntry entry) ⟨queue, .inl idle⟩ turns received outstanding expiry hr

/-- Settles O42: the expiry leaves `Idle` with the worker running, the two bytes fit into the empty queue, and the
frame they make is answered. -/
theorem expiryRestoresThePairing : Obligations.ExpiryRestoresThePairing := by
  intro s ts running busy queue turns
  have room : 2 ≤ Config.hw.qcap := le_trans (by decide) qcap_ge
  have expiry := step_of_expiry (nextTurn_cons turns) running busy queue
  have first := step_of_rxByte (s := wExpire s.advanceTurn) (b := 0xC8#8) (by simp [State.nextTurn, turns]) (by simp)
    (by simp [queue]; omega)
  have second := step_of_rxByte (s := { (wExpire s.advanceTurn).advanceTurn with q := [0xC8#8], dataReady := true })
    (b := 0x02#8) (by simp [State.nextTurn, turns]) (by simp) (by simp; omega)
  rw [show (wExpire s.advanceTurn).q ++ [0xC8#8] = [0xC8#8] by simp [queue]] at first
  refine ⟨_, (runSteps_next expiry).trans <| (runSteps_next first).trans <| (runSteps_next second).trans <|
    runSteps_served_read (a := 0xC8#8) (r := 0x02#8) (ts := ts) rfl running rfl ?_ exec_rdStatus, ?_⟩
  · simp [turns]
  · simp

/-- Settles O49: the decode of a header calls the oracle of its operation, and no other step calls one. -/
theorem handlersAreCalledAtTheirOwnReadAlone : Obligations.HandlersAreCalledAtTheirOwnReadAlone := by
  intro s t hs
  by_cases decode : s.nextTurn = .worker ∧ s.phase = .dispatching ∧ s.wsub = .none
  · obtain ⟨turn, at_, sub⟩ := decode
    have oracles := oracles_of_exec ((step_of_header turn at_ sub).symm.trans hs)
    rcases answer_oracles_cases (decodeInstr s.hdr0 s.hdr1) s.advanceTurn.oracles with
      ⟨adc, e⟩ | ⟨rate, e⟩ | ⟨notAdc, notRate, e⟩ <;> rw [e] at oracles
    · obtain ⟨h0, h1⟩ := (decodeInstr_eq_rdAdc_iff _ _).1 adc
      exact .inl ⟨turn, at_, sub, h0, h1, by simp [oracles], by simp [oracles]⟩
    · obtain ⟨h0, h1⟩ := (decodeInstr_eq_rdRate_iff _ _).1 rate
      exact .inr (.inl ⟨turn, at_, sub, h0, h1, by simp [oracles], by simp [oracles]⟩)
    · rw [Ne, decodeInstr_eq_rdAdc_iff] at notAdc
      rw [Ne, decodeInstr_eq_rdRate_iff] at notRate
      refine .inr (.inr ⟨oracles, ?_⟩)
      rintro ⟨-, -, -, h0, h1 | h1⟩
      · exact notAdc ⟨h0, h1⟩
      · exact notRate ⟨h0, h1⟩
  · exact .inr (.inr ⟨oracles_of_not_decode (step_effect hs) decode,
      fun ⟨turn, at_, sub, _⟩ => decode ⟨turn, at_, sub⟩⟩)

/-- Settles O17: the dispatcher's answer by register, the token's bytes being those of the configuration. -/
theorem registerDispatcherAnswers : Obligations.RegisterDispatcherAnswers := by
  intro c o
  refine ⟨rfl, rfl, ?_, ?_, rfl, ?_, ?_, ?_, ?_⟩ <;> simp

end Sys2Proof.Proofs

/-! SUPPORT. The statements about the encodings (`30_encoding.md`), settled, with the lemmas they need: the header as
the bridge between bytes and operation, the frame decoder past the header, the rows of the opcode table byte by byte,
and the queue along the requests of a host that has one outstanding. -/

namespace Sys2Proof

/-! ### The fields of an address byte (rule R66) -/

/-- The read flag is set from 128 on. -/
theorem readBit_eq_decide (a : Byte) : a[7] = decide (128 ≤ a.toNat) :=
  (BitVec.msb_eq_getLsbD_last a).symm.trans (BitVec.msb_eq_decide a)

/-- The device address is the byte modulo 128. -/
theorem peer_toNat (a : Byte) : (a.extractLsb' 0 7).toNat = a.toNat % 128 := by
  simp [BitVec.extractLsb'_toNat]

theorem peer_eq_ofNat (a : Byte) : a.extractLsb' 0 7 = BitVec.ofNat 7 a.toNat :=
  BitVec.eq_of_toNat_eq (by simp)

/-- The address byte is this block's own exactly where it is 72 modulo 128. -/
theorem peer_eq_own_iff (a : Byte) : a.extractLsb' 0 7 = 0x48#7 ↔ a.toNat % 128 = 72 := by
  rw [← BitVec.toNat_inj, peer_toNat]
  rfl

/-! ### The header between the bytes and the operation (rules R66, R67) -/

/-- The opcode map sends a header for another device to `IGN`. -/
theorem Header.instr_of_foreign {h : Header} (foreign : h.peer ≠ 0x48#7) : h.instr = .ign h.read h.peer h.reg :=
  if_pos foreign

/-- The opcode map sends the header of a well-formed operation to that operation. -/
theorem instr_header {i : Instr} (wf : i.wellFormed = true) : i.header.instr = i := by
  cases i with
  | rdUnmapped reg =>
    have high : 4 ≤ reg.toNat := by simpa [Instr.wellFormed] using wf
    have populated (k : Byte) (hk : k.toNat < 4) : reg ≠ k := by rintro rfl; omega
    simp [Instr.header, Header.instr, populated]
  | ign read peer reg =>
    have foreign : peer ≠ 0x48#7 := by simpa [Instr.wellFormed] using wf
    exact Header.instr_of_foreign foreign
  | _ => rfl

/-- A register address that is none of the four populated ones is at least 4. -/
theorem four_le_of_unpopulated {r : Byte} (h0 : r ≠ 0#8) (h1 : r ≠ 1#8) (h2 : r ≠ 2#8) (h3 : r ≠ 3#8) :
    4 ≤ r.toNat := by
  bv_omega

/-- No header is lost in the opcode map: the operation is well-formed, and its header is the one it came from. -/
theorem header_instr (h : Header) : h.instr.wellFormed = true ∧ h.instr.header = h := by
  obtain ⟨read, peer, reg⟩ := h
  unfold Header.instr
  split_ifs with foreign read_ h0 h1 h2 h3
  · exact ⟨by simpa [Instr.wellFormed] using foreign, rfl⟩
  all_goals obtain rfl : peer = Config.hw.peerAddr := not_not.1 foreign
  all_goals simp_all [Instr.wellFormed, Instr.header, four_le_of_unpopulated]

/-- The bytes of an encoded operation decode to the operation. -/
theorem decode_encode {i : Instr} (wf : i.wellFormed = true) (rest : List Byte) :
    decode (encode i ++ rest) = .ok (i, rest) := by
  rw [encode, List.cons_append, List.cons_append, List.nil_append, decode_two, decodeInstr, decodeHeader_addressByte,
    instr_header wf]

/-! ### The frame decoder past the header (rules R60, R73) -/

/-- A `WR` header hands the bytes after it to the payload decoder. -/
theorem decodeFrame_write (reg : Byte) (rest : List Byte) :
    decodeFrame (0x48#8 :: reg :: rest) = decodePayload (.wr reg) rest := rfl

/-- The payload is as many bytes as the length byte says. -/
theorem decodePayload_of_length {len : Byte} {p : List Byte} (hp : p.length = len.toNat) (head : Instr)
    (rest : List Byte) : decodePayload head (len :: (p ++ rest)) = .ok (⟨head, p⟩, rest) := by
  simp [decodePayload, ← hp]

theorem decodePayload_of_lt {len : Byte} {p : List Byte} (short : p.length < len.toNat) (head : Instr) :
    decodePayload head (len :: p) = .error .truncatedPayload :=
  if_pos short

/-- The length byte of a payload of at most 255 bytes is its length (rule R64). -/
theorem toNat_lengthByte {p : List Byte} (hp : p.length ≤ 255) : (BitVec.ofNat 8 p.length).toNat = p.length := by
  rw [BitVec.toNat_ofNat]
  omega

/-- Past the two bytes of a well-formed header the format decides: a `WR` goes on with its payload, any other frame
ends there. -/
theorem decodeFrame_encode {i : Instr} (wf : i.wellFormed = true) (rest : List Byte) :
    decodeFrame (encode i ++ rest) = if i.isWrite then decodePayload i rest else .ok (⟨i, []⟩, rest) := by
  rw [decodeFrame, decode_encode wf]

/-! ### The rows of the opcode table, byte by byte (rule R68) -/

/-- Whether a row admits an address byte: the upper half of `selects`. -/
def TableRow.admitsAddress (row : TableRow) (a : Byte) : Bool := a &&& headerByte0 row.mask == headerByte0 row.pattern

/-- Whether a row admits a register byte: the lower half of `selects`. -/
def TableRow.admitsRegister (row : TableRow) (r : Byte) : Bool := r &&& headerByte1 row.mask == headerByte1 row.pattern

/-- Two header words are the same if their bytes are. -/
theorem half_eq_iff (h k : Half) : h = k ↔ headerByte0 h = headerByte0 k ∧ headerByte1 h = headerByte1 k := by
  refine ⟨by rintro rfl; exact ⟨rfl, rfl⟩, fun ⟨h0, h1⟩ => ?_⟩
  simp only [headerByte0, headerByte1, ← BitVec.toNat_inj, BitVec.extractLsb'_toNat] at h0 h1
  apply BitVec.eq_of_toNat_eq
  simp only [Nat.shiftRight_eq_div_pow] at h0 h1
  omega

/-- A row selects a header word if it admits both of its bytes. -/
theorem selects_eq (row : TableRow) (h : Half) :
    row.selects h = (row.admitsAddress (headerByte0 h) && row.admitsRegister (headerByte1 h)) := by
  rw [Bool.eq_iff_iff]
  simp only [TableRow.selects, TableRow.admitsAddress, TableRow.admitsRegister, Bool.and_eq_true, beq_iff_eq,
    half_eq_iff (h &&& row.mask), headerByte0, headerByte1, BitVec.extractLsb'_and]

/-- None of this block's own rows admits the address byte of another device, and one of the others does. -/
theorem admitsAddress_foreign {a : Byte} (foreign : a.extractLsb' 0 7 ≠ 0x48#7) :
    ownRows.filter (·.admitsAddress a) = [] ∧
      (foreignRows.filter (·.admitsAddress a)).map TableRow.mnemonic = ["IGN"] := by
  revert a; decide

/-- The rows of other devices leave the register byte open. -/
theorem admitsRegister_foreign {row : TableRow} (h : row ∈ foreignRows) (r : Byte) : row.admitsRegister r = true := by
  have key : ∀ row ∈ foreignRows, headerByte1 row.mask = 0#8 ∧ headerByte1 row.pattern = 0#8 := by decide
  obtain ⟨mask, pattern⟩ := key row h
  simp [TableRow.admitsRegister, mask, pattern]

/-- Of the rows that admit a READ of this device the register byte picks the one of the operation. -/
theorem admitsRegister_read (r : Byte) :
    ((tableRows.filter (·.admitsAddress 0xC8#8)).filter (·.admitsRegister r)).map TableRow.mnemonic =
      [(decodeInstr 0xC8#8 r).mnemonic] := by
  revert r; decide

/-- One row admits a WRITE to this device, whatever the register byte. -/
theorem admitsRegister_write (r : Byte) :
    ((tableRows.filter (·.admitsAddress 0x48#8)).filter (·.admitsRegister r)).map TableRow.mnemonic =
      [(decodeInstr 0x48#8 r).mnemonic] := by
  have rows : tableRows.filter (·.admitsAddress 0x48#8) = [⟨"WR", 0x4800#16, 0xFF00#16⟩] := by decide
  have opens : TableRow.admitsRegister ⟨"WR", 0x4800#16, 0xFF00#16⟩ r = true := by
    simp [TableRow.admitsRegister, headerByte1]
  simp [rows, opens, Instr.mnemonic]

/-- The rows that admit both bytes of a header are one, and it bears the name of the operation. -/
theorem admits_one_row (a r : Byte) :
    ((tableRows.filter (·.admitsAddress a)).filter (·.admitsRegister r)).map TableRow.mnemonic =
      [(decodeInstr a r).mnemonic] := by
  by_cases own : a.extractLsb' 0 7 = 0x48#7
  · rcases own_addressByte own with rfl | rfl
    · exact admitsRegister_read r
    · exact admitsRegister_write r
  · obtain ⟨none, one⟩ := admitsAddress_foreign own
    have opens : ∀ row ∈ foreignRows.filter (·.admitsAddress a), row.admitsRegister r = true :=
      fun row h => admitsRegister_foreign (List.mem_of_mem_filter h) r
    rw [tableRows, List.filter_append, none, List.nil_append, List.filter_eq_self.2 opens, one,
      decodeInstr_foreign own]
    rfl

end Sys2Proof

namespace Sys2Proof.Proofs

open Sys2Proof.Machine

/-! ### Settled: the headers and frames -/

/-- Settles O3: the header decode recovers the fields, and the opcode map the operation. -/
theorem decodeOfEncodeIsTheInstruction : Obligations.DecodeOfEncodeIsTheInstruction :=
  fun _ rest wf => decode_encode wf rest

/-- Settles O5: by the format of the header, the payload of a `WR` frame being as long as its length byte says. -/
theorem decodeOfEncodedFrameIsTheFrame : Obligations.DecodeOfEncodedFrameIsTheFrame := by
  rintro ⟨head, payload⟩ rest wf
  simp only [Frame.wellFormed, Bool.and_eq_true, decide_eq_true_eq, Bool.or_eq_true, List.isEmpty_iff] at wf
  obtain ⟨⟨wf, short⟩, format⟩ := wf
  rw [encodeFrame, List.append_assoc, decodeFrame_encode wf]
  cases write : head.isWrite with
  | true => exact decodePayload_of_length (toNat_lengthByte short).symm head rest
  | false =>
    obtain rfl : payload = [] := format.resolve_left (by simp [write])
    rfl

/-- Settles O1: the fields as numbers, and the payload behind the length byte. -/
theorem headerFieldsOfTwoBytes : Obligations.HeaderFieldsOfTwoBytes :=
  ⟨fun a _ => ⟨readBit_eq_decide a, peer_toNat a, rfl⟩,
    fun reg _ _ rest hp => (decodeFrame_write reg _).trans (decodePayload_of_length hp (.wr reg) rest)⟩

/-- Settles O2: the address byte is another device's or one of this block's two. -/
theorem opcodeMapOfTheHeader : Obligations.OpcodeMapOfTheHeader := by
  refine ⟨fun a r => ⟨fun foreign => ?_, ?_, ?_, ?_⟩, by decide +kernel, by decide +kernel⟩
  · rw [decodeInstr_foreign (mt (peer_eq_own_iff a).1 foreign), readBit_eq_decide, peer_eq_ofNat]
  · rintro rfl
    exact decodeInstr_read r
  · rintro rfl
    exact decodeInstr_write r
  · exact or_iff_not_imp_left.2 fun own => own_addressByte ((peer_eq_own_iff a).2 (not_not.1 own))

/-- Settles O4: the opcode map loses no field of the header, and the address byte none of its bits. -/
theorem encodeOfDecodeIsTheBytes : Obligations.EncodeOfDecodeIsTheBytes := by
  intro a r
  obtain ⟨wf, fields⟩ := header_instr (decodeHeader a r)
  refine ⟨wf, ?_⟩
  rw [encode, decodeInstr, fields, decodeHeader_read, decodeHeader_peer, decodeHeader_reg, addressByte_fields]

/-- Settles O6: a row selects a word by its two bytes, and one row admits both. -/
theorem oneTableRowSelectsEachHeader : Obligations.OneTableRowSelectsEachHeader := by
  intro h
  have split : tableRows.filter (·.selects h) =
      (tableRows.filter (·.admitsAddress (headerByte0 h))).filter (·.admitsRegister (headerByte1 h)) := by
    rw [List.filter_filter]
    exact List.filter_congr fun row _ => by rw [selects_eq, Bool.and_comm]
  rw [split, admits_one_row]

/-- Settles O7: each header by evaluation. -/
theorem writtenOutHeadersDecode : Obligations.WrittenOutHeadersDecode :=
  ⟨rfl, rfl, rfl, rfl, rfl, rfl⟩

/-- Settles O8: the header decoder fails at a list of no byte or one, the frame decoder where the length byte or a
payload byte is missing. -/
theorem onlyTruncationIsRejected : Obligations.OnlyTruncationIsRejected := by
  refine ⟨fun bytes => ?_, fun _ => rfl,
    fun reg len p short => (decodeFrame_write reg _).trans (decodePayload_of_lt short (.wr reg))⟩
  match bytes with
  | [] | [_] => simp [decode]
  | _ :: _ :: _ => simp

end Sys2Proof.Proofs

namespace Sys2Proof.Machine

/-! ### The bytes of one request along a run (rules R136, R202) -/

/-- The bytes the block has still to take: those queued, and those that the turns to come bring. -/
def State.coming (s : State) (l : List Turn) : List Byte := s.q ++ rxBytes l

/-- Turns that bring no byte leave the bytes to come as they are. -/
theorem coming_cons_of_silent {s : State} {u : Turn} (silent : ∀ b, u ≠ .rxByte b) (l : List Turn) :
    s.coming (u :: l) = s.coming l := by
  cases u with
  | rxByte b => exact absurd rfl (silent b)
  | _ => rfl

/-- Where the bytes to come fit into the queue, a received byte finds room. -/
theorem room_of_coming {s : State} {b : Byte} {l : List Turn} (turn : s.nextTurn = .rxByte b)
    (fits : (s.coming (s.nextTurn :: l)).length ≤ Config.hw.qcap) : s.q.length < Config.hw.qcap := by
  simp only [State.coming, turn, rxBytes, List.length_append, List.length_cons] at fits
  omega

/-- A step takes bytes off the front of those to come and no others: a push moves one from the turns to the queue, a
pop takes the first, and a stop or a reset gives up the queued ones. -/
theorem coming_of_stepEffect {s t : State} (he : StepEffect s t) (hi : s.Inv) (l : List Turn)
    (fits : (s.coming (s.nextTurn :: l)).length ≤ Config.hw.qcap) : t.coming l <:+ s.coming (s.nextTurn :: l) := by
  cases he with
  | push b turn => simp [State.coming, turn, rxBytes]
  | drop b turn _ full => exact absurd (room_of_coming turn fits) full
  | discard b turn dead =>
    obtain ⟨-, -, -, -, -, hstopped⟩ := hi
    simp [State.coming, turn, rxBytes, hstopped dead]
  | reset turn | stop turn => simp [State.coming, turn, rxBytes]
  | popIdle b rest turn queue | popHeader b rest turn queue | popLengthZero rest turn queue
  | popLength b rest turn queue | popLast b rest turn queue | popPayload b rest turn queue =>
    simp [State.coming, turn, rxBytes, queue]
  | wait turn =>
    rcases turn with turn | turn | turn <;> rw [turn] <;> exact List.suffix_rfl
  | raise turn | raiseDead turn | wake turn | decodeRead _ turn | decodeWrite turn | decodeAbandon _ turn
  | transmit turn | sleep turn | expire turn => rw [turn]; exact List.suffix_rfl

/-- The block holds and still receives no more than a part of one frame, which fits into the queue. -/
structure WithinFrame (frame : List Byte) (l : List Turn) (s : State) : Prop where
  inv : s.Inv
  fits : frame.length ≤ Config.hw.qcap
  part : s.coming l <:+: frame

/-- A step keeps the block within the frame. -/
theorem WithinFrame.step {frame : List Byte} {l : List Turn} {s t : State} (h : WithinFrame frame (s.nextTurn :: l) s)
    (hs : step s = .next t) : WithinFrame frame l t where
  inv := inv_of_stepEffect h.inv (step_effect hs)
  fits := h.fits
  part := (coming_of_stepEffect (step_effect hs) h.inv l (h.part.length_le.trans h.fits)).isInfix.trans h.part

/-- Within one frame no byte is dropped. -/
theorem WithinFrame.noDrop {frame : List Byte} {l ts : List Turn} {s : State} (h : WithinFrame frame l s)
    (turns : s.turns = l ++ ts) : s.NoDrop l.length := by
  induction l generalizing s with
  | nil => trivial
  | cons u l ih =>
    have first : s.nextTurn = u := nextTurn_cons turns
    rw [← first] at h
    exact ⟨fun b turn => room_of_coming turn (h.part.length_le.trans h.fits),
      fun t ht => ih (h.step ht) (turns_of_step turns ht)⟩

/-- At every moment of a run within a frame the queue holds a part of it. -/
theorem WithinFrame.queue_part {frame : List Byte} {l ts : List Turn} {s t : State} {n : Nat} (h : WithinFrame frame l s)
    (turns : s.turns = l ++ ts) (hn : n ≤ l.length) (hr : runSteps n s = .next t) : t.q <:+: frame := by
  have played : rxBytes (l.take n) <+: rxBytes l :=
    ⟨rxBytes (l.drop n), by rw [← rxBytes_append, List.take_append_drop]⟩
  have start : WithinFrame frame (l.take n) s :=
    { h with part := ((List.prefix_append_right_inj s.q).2 played).isInfix.trans h.part }
  have turns' : s.turns = l.take n ++ (l.drop n ++ ts) := by rw [turns, ← List.append_assoc, List.take_append_drop]
  rw [← List.length_take_of_le hn] at hr
  simpa [State.coming, rxBytes] using (runSteps_induction (fun _ _ _ => WithinFrame.step) start turns' hr).part

/-! ### An answered request leaves nothing behind (rule R136)

The request may meet a block in the middle of a frame that the host alone has given up. Even so a response can be made
of the request's own two bytes only: taken as a register byte, its address byte names no register. -/

/-- A run of an own READ from its first byte on, where the transmit stream has the length `sent`: either nothing has
been sent yet, and what is latched was made of bytes that are no longer to come, or the block is at a boundary and no
byte is to come. -/
inductive Replying (sent : Nat) (reg : Byte) (l : List Turn) (s : State) : Prop where
  | unsent (inv : s.Inv) (short : s.tx.length ≤ sent) (part : (s.coming l).Sublist [0xC8#8, reg])
    (header : s.phase = .dispatching → s.wsub = .none → (s.hdr1 :: s.coming l).Sublist [0xC8#8, reg])
    (latched : s.phase = .responding → s.coming l = [])
  | done (boundary : s.AtBoundary) (silent : rxBytes l = [])

/-- A served READ is at a register address below 4, which the address byte `0xC8` is not. -/
theorem register_ne_of_served_read {a r : Byte} (h : (decodeInstr a r).isServedRead = true) : r ≠ 0xC8#8 := by
  obtain rfl := address_of_served_read h
  rintro rfl
  exact (decodeInstr_read_served_iff _).1 h (by decide)

/-- Behind a byte of the request that is not its address byte, no byte of it is to come. -/
theorem eq_nil_of_cons_sublist {b reg : Byte} {w : List Byte} (h : (b :: w).Sublist [0xC8#8, reg]) (hb : b ≠ 0xC8#8) :
    w = [] := by
  cases h with
  | cons _ h => exact List.length_eq_zero_iff.1 (by simpa using h.length_le)
  | cons_cons _ h => exact absurd rfl hb

/-- A step of such a run: what it latches is made of the request's own bytes, so that a response is made of both. -/
theorem Replying.step {sent : Nat} {reg : Byte} {l : List Turn} {s t : State} (h : Replying sent reg (s.nextTurn :: l) s)
    (hs : step s = .next t) : Replying sent reg l t := by
  have he := step_effect hs
  cases h with
  | done boundary silent =>
    obtain ⟨silent, later⟩ := rxBytes_cons_eq_nil silent
    exact .done (atBoundary_of_stepEffect he boundary silent) later
  | unsent inv short part header latched =>
    have inv' := inv_of_stepEffect inv he
    have fits : (s.coming (s.nextTurn :: l)).length ≤ Config.hw.qcap :=
      part.length_le.trans (le_trans (by simp) qcap_ge)
    have less := (coming_of_stepEffect he inv l fits).sublist
    have part' := less.trans part
    cases he with
    | push | drop | discard | raise | raiseDead | wait | wake | sleep | popPayload =>
      exact .unsent inv' short part' (fun hp hs => (less.cons_cons _).trans (header hp hs))
        (fun hp => List.sublist_nil.1 (latched hp ▸ less))
    | reset => exact .unsent inv' (Nat.zero_le _) part' (by simp) (by simp)
    | popHeader b rest turn queue =>
      exact .unsent inv' short part' (fun _ _ => by simpa [State.coming, turn, rxBytes, queue] using part) (by simp)
    | decodeRead k turn at_ sub served =>
      have used := eq_nil_of_cons_sublist (header at_ sub) (register_ne_of_served_read served)
      exact .unsent inv' short part' (by simp) (fun _ => List.sublist_nil.1 (used ▸ less))
    | transmit turn at_ =>
      obtain ⟨queue, silent⟩ := List.append_eq_nil_iff.1 (List.sublist_nil.1 (latched at_ ▸ less))
      exact .done ⟨queue, .inl rfl⟩ silent
    | stop | popIdle | popLengthZero | popLast | decodeAbandon | expire =>
      exact .unsent inv' short part' (by simp) (by simp)
    | popLength _ _ _ _ _ _ at_ | decodeWrite _ at_ => exact .unsent inv' short part' (by simp) (by simp [at_])

/-- At a boundary nothing is left to do. -/
theorem drained_of_atBoundary {s : State} (h : s.AtBoundary) : s.Drained := by
  obtain ⟨queue, place⟩ := h
  rcases place with place | place <;> simp [State.Drained, queue, place]

/-- A register that the look-up finds is at least one byte wide (rule R11). -/
theorem width_pos_of_lookupRegister {reg : Byte} {r : Register} (found : lookupRegister reg = some r) : 0 < r.width := by
  have key : ∀ r ∈ registerTable, 0 < r.width := by decide
  exact key r (mem_of_lookupRegister found).1

/-- A request that was answered, by a block that had nothing left to do before it, leaves nothing to do. -/
theorem drained_of_answered {x : Exchange} {s t : State} {ts : List Turn} (hi : s.Inv) (drained : s.Drained)
    (turns : s.turns = x.turns ++ ts) (received : rxBytes x.turns = x.request.bytes)
    (hr : runSteps x.turns.length s = .next t) (answered : x.Answered s t) : t.Drained := by
  obtain ⟨reg, r, request, found, longer⟩ := answered
  obtain ⟨queue, silent, decoded⟩ := drained
  have width := width_pos_of_lookupRegister found
  have own : s.coming x.turns = [0xC8#8, reg] := by
    rw [State.coming, queue, received, request]
    rfl
  have start : Replying s.tx.length reg x.turns s :=
    .unsent hi le_rfl (by rw [own]) (fun hp hs => absurd ⟨hp, hs⟩ decoded) (fun hp => absurd hp silent)
  cases runSteps_induction (fun _ _ _ => Replying.step) start turns hr with
  | unsent _ short => omega
  | done boundary => exact drained_of_atBoundary boundary

/-! ### One request after the other -/

/-- With one request outstanding, each meets a block that has nothing left to do, so that along all of them no byte is
dropped and the queue holds a part of one request. -/
theorem queue_of_exchanges {xs : List Exchange} {s : State} {ts : List Turn} (hi : s.Inv) (drained : s.Drained)
    (turns : s.turns = exchangeTurns xs ++ ts) (whole : ∀ x ∈ xs, x.request.wellFormed = true)
    (received : ∀ x ∈ xs, rxBytes x.turns = x.request.bytes) (outstanding : s.OneOutstanding xs) :
    s.NoDrop (exchangeTurns xs).length ∧
      ∀ n t, n ≤ (exchangeTurns xs).length → runSteps n s = .next t → t.q = [] ∨ ∃ x ∈ xs, t.q <:+: x.request.bytes := by
  induction xs generalizing s with
  | nil =>
    refine ⟨trivial, fun n t hn hr => ?_⟩
    obtain rfl := Nat.le_zero.1 hn
    cases hr
    obtain ⟨queue, -⟩ := drained
    exact .inl queue
  | cons x xs ih =>
    rw [exchangeTurns_cons, List.append_assoc] at turns
    rw [exchangeTurns_cons, List.length_append]
    obtain ⟨whole, wholes⟩ := List.forall_mem_cons.1 whole
    obtain ⟨received, receiveds⟩ := List.forall_mem_cons.1 received
    obtain ⟨queue, -⟩ := id drained
    have start : WithinFrame x.request.bytes x.turns s :=
      { inv := hi
        fits := (Request.bytes_length_le whole).trans qcap_ge
        part := by rw [State.coming, queue, received]; exact List.infix_rfl }
    have later (u : State) (hu : runSteps x.turns.length s = .next u) := by
      obtain ⟨answered, givenUp, outstanding⟩ := outstanding u hu
      have drained' : u.Drained := by
        by_cases response : x.completion = .response
        · exact drained_of_answered hi drained turns received hu (answered response)
        · exact givenUp response
      exact ih (inv_of_runSteps hi hu) drained' (turns_of_runSteps turns hu) wholes receiveds outstanding
    refine ⟨noDrop_append (start.noDrop turns) fun u hu => (later u hu).1, fun n t hn hr => ?_⟩
    rcases le_total n x.turns.length with first | second
    · exact .inr ⟨x, List.mem_cons_self, start.queue_part turns first hr⟩
    · obtain ⟨k, rfl⟩ := Nat.exists_eq_add_of_le second
      obtain ⟨u, hu, hr⟩ := exists_runSteps_of_add hr
      exact ((later u hu).2 k t (by omega) hr).imp_right fun ⟨y, hy, part⟩ => ⟨y, List.mem_cons_of_mem _ hy, part⟩

end Sys2Proof.Machine

namespace Sys2Proof.Proofs

open Sys2Proof.Machine

/-! ### Settled: one request at a time -/

/-- Settles O59: every request finds the block with nothing left to do, an unanswered one by the premise, an answered
one because its response was made of all its bytes; and a part of one request has at most 258 bytes. -/
theorem noDropFollowsFromOneOutstanding : Obligations.NoDropFollowsFromOneOutstanding := by
  intro xs s ts entry turns whole order outstanding
  have sent (x : Exchange) (hx : x ∈ xs) := (wholeFrames_singleton _ _).1 (whole x hx)
  obtain ⟨queue, -, -, idle, -⟩ := id entry
  obtain ⟨room, held⟩ := queue_of_exchanges (inv_of_cleanEntry entry) (drained_of_atBoundary ⟨queue, .inl idle⟩) turns
    (fun x hx => (sent x hx).1) (fun x hx => (order x hx).trans (sent x hx).2) outstanding
  refine ⟨room, fun n t hn hr => ⟨?_, held n t hn hr⟩⟩
  rcases held n t hn hr with queue | ⟨x, hx, part⟩
  · simp [queue]
  · exact part.length_le.trans (Request.bytes_length_le (sent x hx).1)

end Sys2Proof.Proofs

/-! SUPPORT. The statements about the sequencer (`40_sequencer.md`), settled, with the lemmas they need: the one step a
state offers, the rules of the steps that have none yet, and the runs of the frames that are not answered. -/

namespace Sys2Proof.Machine

/-! ### The one step a state offers (rule R89) -/

/-- A step whose condition holds is the one offered. -/
theorem next_of_enabled {w : WorkerStep} {s : State} (he : enabled w s = true) : nextWorkerStep s = some w := by
  rw [enabled_iff] at he
  cases w with
  | wStop =>
    obtain ⟨blocked, idle, raised⟩ := he
    exact next_wStop blocked idle raised
  | wWake =>
    obtain ⟨blocked, idle, clear, ready⟩ := he
    exact next_wWake blocked idle clear ready
  | wPop =>
    obtain ⟨running, queue, idle | header | ⟨at_, sub⟩⟩ := he
    · exact next_wPop_idle running idle queue
    · exact next_wPop_header running header queue
    · exact next_wPop_write running at_ sub queue
  | wDecode =>
    obtain ⟨at_, sub⟩ := he
    exact next_wDecode at_ sub
  | wTx => exact next_wTx he
  | wSleep =>
    obtain ⟨running, queue, idle⟩ := he
    exact next_wSleep running idle queue
  | wExpire =>
    obtain ⟨running, queue, inside⟩ := he
    exact next_wExpire running ((busy_iff s).2 inside) queue

/-- A running worker inside a frame with a byte queued is offered the pop. -/
theorem next_wPop_busy {s : State} (running : s.wk = .running) (busy : s.busy = true) (queue : s.q ≠ []) :
    nextWorkerStep s = some .wPop :=
  next_of_enabled ((enabled_iff .wPop s).2 ⟨running, queue, .inr ((busy_iff s).1 busy)⟩)

/-- A worker at the wait is offered what the flags say, `Stop` first. -/
theorem next_at_wait {s : State} (blocked : s.wk = .blocked) (idle : s.phase = .idle) :
    nextWorkerStep s = if s.stop then some .wStop else if s.dataReady then some .wWake else none := by
  split_ifs with raised ready
  · exact next_wStop blocked idle raised
  · exact next_wWake blocked idle (by simpa using raised) ready
  · exact next_asleep blocked idle (by simpa using raised) (by simpa using ready)

/-- A running worker with nothing latched to decode or to send is offered a pop where a byte is queued, and otherwise
the sleep or the expiry. -/
theorem next_of_running {s : State} (running : s.wk = .running) (place : s.phase = .idle ∨ s.busy = true) :
    nextWorkerStep s =
      if s.q ≠ [] then some .wPop else if s.phase = .idle then some .wSleep else some .wExpire := by
  split_ifs with queue idle
  · exact place.elim (next_wPop_idle running · queue) (next_wPop_busy running · queue)
  · exact next_wSleep running idle (not_not.1 queue)
  · exact next_wExpire running (place.resolve_left idle) (not_not.1 queue)

/-- The case list of rule R89. -/
theorem next_of_inv {s : State} (hi : s.Inv) : nextWorkerStep s =
    if s.phase = .stopped then none
    else if s.wk = .blocked then (if s.stop then some .wStop else if s.dataReady then some .wWake else none)
    else if s.phase = .responding then some .wTx
    else if s.phase = .dispatching ∧ s.wsub = .none then some .wDecode
    else if s.q ≠ [] then some .wPop
    else if s.phase = .idle then some .wSleep
    else some .wExpire := by
  obtain ⟨-, hblocked, -⟩ := hi
  by_cases dead : s.phase = .stopped
  · rw [if_pos dead, next_stopped dead]
  rw [if_neg dead]
  by_cases blocked : s.wk = .blocked
  · rw [if_pos blocked, next_at_wait blocked ((hblocked blocked).resolve_right dead)]
  rw [if_neg blocked]
  by_cases latched : s.phase = .responding
  · rw [if_pos latched, next_wTx latched]
  rw [if_neg latched]
  by_cases undecoded : s.phase = .dispatching ∧ s.wsub = .none
  · rw [if_pos undecoded, next_wDecode undecoded.1 undecoded.2]
  rw [if_neg undecoded]
  have running : s.wk = .running := by
    cases hw : s.wk with
    | running => rfl
    | blocked => exact absurd hw blocked
  refine next_of_running running ?_
  rw [busy_iff]
  cases hp : s.phase with
  | idle => exact .inl rfl
  | headerPartial => exact .inr (.inl rfl)
  | dispatching => exact .inr (.inr ⟨rfl, fun sub => undecoded ⟨hp, sub⟩⟩)
  | responding => exact absurd hp latched
  | stopped => exact absurd hp dead

/-! ### One rule per step, by its turn: the steps of the wait and of the drain -/

/-- The wake (rule R82). -/
theorem step_of_wake {s : State} (turn : s.nextTurn = .worker) (blocked : s.wk = .blocked) (idle : s.phase = .idle)
    (clear : s.stop = false) (ready : s.dataReady = true) : step s = .next (wWake s.advanceTurn) :=
  step_worker (next_wWake blocked idle clear ready) (by simp [turn, grants])

/-- The return to the wait (rule R87). -/
theorem step_of_sleep {s : State} (turn : s.nextTurn = .worker) (running : s.wk = .running) (idle : s.phase = .idle)
    (queue : s.q = []) : step s = .next (wSleep s.advanceTurn) :=
  step_worker (next_wSleep running idle queue) (by simp [turn, grants])

/-- A turn of the worker that does not let the offered step be taken passes without effect (rule R81). -/
theorem step_of_waits {s : State} {w : WorkerStep} (next : nextWorkerStep s = some w)
    (turn : s.nextTurn = .worker ∨ s.nextTurn = .txReady ∨ s.nextTurn = .underfillExpired)
    (withheld : grants s.nextTurn w = false) : step s = .next s.advanceTurn := by
  have waits := workerTurn_waits (s := s.advanceTurn) (by simpa using next) withheld
  rcases turn with turn | turn | turn
  all_goals
    rw [turn] at waits
    rw [step, turn]
    exact waits

/-- The pop of the length byte of a write (rule R84). -/
theorem step_of_length {s : State} {b : Byte} {rest : List Byte} (turn : s.nextTurn = .worker)
    (running : s.wk = .running) (at_ : s.phase = .dispatching) (sub : s.wsub = .awaitLen) (queue : s.q = b :: rest) :
    step s = .next (if b = 0#8 then { s.advanceTurn with q := rest, phase := .idle, wsub := .none }
      else { s.advanceTurn with q := rest, drainCnt := b, wsub := .drain }) := by
  rw [step_worker (next_wPop_write running at_ (by simp [sub]) (by simp [queue])) (by simp [turn, grants]),
    runWorkerStep, wPop_cons (s := s.advanceTurn) queue]
  simp [takeByte, at_, sub]

/-- A drain count runs out exactly at 1: `sub_eq_zero` with the literals as the model writes them. -/
theorem sub_one_eq_zero_iff (c : Byte) : c - 1#8 = 0#8 ↔ c = 1#8 := sub_eq_zero

/-- The pop of a payload byte of a write (rule R84). -/
theorem step_of_payload {s : State} {b : Byte} {rest : List Byte} (turn : s.nextTurn = .worker)
    (running : s.wk = .running) (at_ : s.phase = .dispatching) (sub : s.wsub = .drain) (queue : s.q = b :: rest) :
    step s = .next (if s.drainCnt = 1#8
      then { s.advanceTurn with q := rest, drainCnt := 0#8, phase := .idle, wsub := .none }
      else { s.advanceTurn with q := rest, drainCnt := s.drainCnt - 1#8 }) := by
  rw [step_worker (next_wPop_write running at_ (by simp [sub]) (by simp [queue])) (by simp [turn, grants]),
    runWorkerStep, wPop_cons (s := s.advanceTurn) queue]
  by_cases last : s.drainCnt = 1#8 <;> simp [takeByte, at_, sub, sub_one_eq_zero_iff, last]

/-! ### Frames that are not answered (rules R105, R110 to R114, R120) -/

theorem advanceTurn_cons {s : State} {t : Turn} {ts : List Turn} (h : s.turns = t :: ts) :
    s.advanceTurn = { s with turns := ts, turnCount := s.turnCount + 1 } := by
  simp [State.advanceTurn, h]

theorem runSteps_one (s : State) : runSteps 1 s = step s := by
  rw [runSteps_succ]
  cases step s <;> rfl

/-- The three worker turns of a header at the head of the queue: two pops, and the dispatch of its operation (rule
R91). -/
theorem runSteps_header {s : State} {a r : Byte} {rest : List Byte} {ts : List Turn} (idle : s.phase = .idle)
    (running : s.wk = .running) (queue : s.q = a :: r :: rest)
    (turns : s.turns = .worker :: .worker :: .worker :: ts) :
    runSteps 3 s = exec (decodeInstr a r) { s with
      q := rest, hdr0 := a, hdr1 := r, phase := .dispatching, wsub := .none, turns := ts,
      turnCount := s.turnCount + 3 } := by
  rw [runSteps_add (n := 1) (runSteps_header_pops idle running queue turns), runSteps_one]
  exact step_of_header rfl rfl rfl

/-- A READ of an address outside the table and a header for another device are given up. -/
theorem exec_unserved {a r : Byte} (unserved : a = 0xC8#8 ∧ 4 ≤ r.toNat ∨ a.toNat % 128 ≠ 72) :
    ∃ c, ∀ u, exec (decodeInstr a r) u = .next (u.abandon c) := by
  rcases unserved with ⟨rfl, high⟩ | foreign
  · have unmapped : decodeInstr 0xC8#8 r = .rdUnmapped r :=
      instr_header (i := .rdUnmapped r) (by simpa [Instr.wellFormed] using high)
    exact ⟨.unknownRegister, fun u => by rw [unmapped]; rfl⟩
  · exact ⟨.addressMismatch, fun u => by rw [decodeInstr_foreign (mt (peer_eq_own_iff a).1 foreign)]; rfl⟩

/-- The drain of the payload of a write: as many steps as the drain count says (rules R84, R112). -/
theorem runSteps_drain {s : State} {payload rest : List Byte} {ts : List Turn} (running : s.wk = .running)
    (at_ : s.phase = .dispatching) (sub : s.wsub = .drain) (left : s.drainCnt ≠ 0#8)
    (length : payload.length = s.drainCnt.toNat) (queue : s.q = payload ++ rest)
    (turns : s.turns = List.replicate payload.length .worker ++ ts) :
    runSteps payload.length s = .next { s with
      q := rest, phase := .idle, wsub := .none, drainCnt := 0#8, turns := ts,
      turnCount := s.turnCount + payload.length } := by
  induction payload generalizing s with
  | nil => exact absurd (BitVec.eq_of_toNat_eq length.symm) left
  | cons b payload ih =>
    have turns : s.turns = .worker :: (List.replicate payload.length .worker ++ ts) := turns
    have first := step_of_payload (nextTurn_cons turns) running at_ sub queue
    rw [advanceTurn_cons turns] at first
    rw [List.length_cons] at length ⊢
    by_cases last : s.drainCnt = 1#8
    · obtain rfl : payload = [] := List.length_eq_zero_iff.1 (by simpa [last] using length)
      rw [if_pos last] at first
      exact runSteps_next first
    · rw [if_neg last] at first
      rw [runSteps_next first]
      refine Eq.trans (ih running at_ sub (mt (sub_one_eq_zero_iff _).1 last) (by bv_omega) rfl rfl) ?_
      simp [Nat.add_assoc, Nat.add_comm 1]

/-- The length byte of a write and the payload it announces. -/
theorem runSteps_length_and_payload {s : State} {len : Byte} {payload rest : List Byte} {ts : List Turn}
    (running : s.wk = .running) (at_ : s.phase = .dispatching) (sub : s.wsub = .awaitLen)
    (length : payload.length = len.toNat) (queue : s.q = len :: (payload ++ rest))
    (turns : s.turns = .worker :: (List.replicate payload.length .worker ++ ts)) :
    runSteps (payload.length + 1) s = .next { s with
      q := rest, phase := .idle, wsub := .none, drainCnt := (if len = 0#8 then s.drainCnt else 0#8), turns := ts,
      turnCount := s.turnCount + (payload.length + 1) } := by
  have first := step_of_length (nextTurn_cons turns) running at_ sub queue
  rw [advanceTurn_cons turns] at first
  by_cases empty : len = 0#8
  · obtain rfl : payload = [] := List.length_eq_zero_iff.1 (by simpa [empty] using length)
    rw [if_pos empty] at first
    rw [if_pos empty]
    exact runSteps_next first
  · rw [if_neg empty] at first
    rw [if_neg empty, runSteps_next first]
    refine Eq.trans (runSteps_drain running at_ rfl empty length rfl rfl) ?_
    simp [Nat.add_assoc, Nat.add_comm 1]

end Sys2Proof.Machine

namespace Sys2Proof.Proofs

open Sys2Proof.Machine

/-! ### Settled: which worker step is offered -/

/-- Settles O27: every enabled step is the one offered, and the invariants put a blocked worker at the wait. -/
theorem atMostOneWorkerStepIsEnabled : Obligations.AtMostOneWorkerStepIsEnabled :=
  ⟨fun _ _ _ he he' => Option.some.inj ((next_of_enabled he).symm.trans (next_of_enabled he')),
    fun _ hi => next_of_inv hi⟩

/-- Settles O51: of the case list only `Stopped` and a wait with no flag raised offer nothing, and by the invariants
such a wait is in `Idle` with nothing queued. -/
theorem noWorkerStepExactlyAtRest : Obligations.NoWorkerStepExactlyAtRest := by
  intro s hi
  constructor
  · intro rests
    rw [next_of_inv hi] at rests
    obtain ⟨-, hblocked, -, -, hwake, -⟩ := hi
    refine or_iff_not_imp_left.2 fun live => ?_
    by_cases blocked : s.wk = .blocked
    · rw [if_neg live, if_pos blocked] at rests
      split_ifs at rests with raised ready
      have asleep : s.dataReady = false := by simpa using ready
      have empty : s.q = [] := by
        by_contra queue
        exact ready (hwake live blocked queue)
      exact ⟨blocked, (hblocked blocked).resolve_right live, empty, by simpa using raised, asleep⟩
    · rw [if_neg live, if_neg blocked] at rests
      split_ifs at rests
  · rintro (dead | ⟨blocked, idle, -, clear, asleep⟩)
    · exact next_stopped dead
    · exact next_asleep blocked idle clear asleep

/-! ### Settled: the worker's steps -/

/-- Settles O21: the wake, and the sleep after it where nothing is queued. -/
theorem wakeConsumesDataReady : Obligations.WakeConsumesDataReady := by
  intro s turn blocked idle clear ready
  have wake := step_of_wake turn blocked idle clear ready
  refine ⟨wake, fun queue turn' => ?_⟩
  have sleep := step_of_sleep (s := wWake s.advanceTurn) turn' rfl idle queue
  rw [runSteps_next wake, runSteps_next sleep, runSteps_zero]
  simp [wSleep, wWake, State.clearDataReady, State.advanceTurn, blocked]

/-- Settles O23: one rule per place of the pop. -/
theorem popTakesTheNextByteOfTheFrame : Obligations.PopTakesTheNextByteOfTheFrame :=
  fun _ _ _ turn running queue =>
    ⟨fun idle => step_of_address turn running idle queue, fun at_ => step_of_register turn running at_ queue,
      fun at_ sub => step_of_length turn running at_ sub queue,
      fun at_ sub _ => step_of_payload turn running at_ sub queue⟩

/-- Settles O26: the expiry is offered at an empty queue alone, and the pop otherwise, which an expiry turn
withholds. -/
theorem expiryGivesUpTheFrameInProgress : Obligations.ExpiryGivesUpTheFrameInProgress := by
  intro s turn running busy
  refine ⟨fun queue => ⟨step_of_expiry turn running busy queue, next_wSleep running rfl queue⟩, fun queue => ?_⟩
  have next := next_wPop_busy running busy queue
  exact ⟨step_of_waits next (.inr (.inr turn)) (by simp [turn, grants]), next⟩

/-- Settles O24: in `Responding` the step offered is `W-TX`, which only a `TxReady` turn grants. -/
theorem responseIsWrittenWhole : Obligations.ResponseIsWrittenWhole := by
  intro s latched
  refine ⟨fun turn => ?_, fun turn => step_of_waits (next_wTx latched) (turn.imp_right .inr) ?_⟩
  · rw [step_of_txReady turn, if_pos latched]
    rfl
  · rcases turn with turn | turn <;> simp [turn, grants]

/-- Settles O25: the sleep leaves the flags as they are, so that a raised `DataReady` wakes the worker. -/
theorem sleepAtAnEmptyQueue : Obligations.SleepAtAnEmptyQueue :=
  fun _ turn running idle queue =>
    ⟨step_of_sleep turn running idle queue, fun ready clear => next_wWake rfl idle clear ready⟩

/-- Settles O19: the decode is the step offered. -/
theorem stepRunsTheLatchedHeader : Obligations.StepRunsTheLatchedHeader :=
  fun _ turn at_ sub => step_of_header turn at_ sub

/-- Settles O15: both operations give the frame up, whatever their operands. -/
theorem unservedHeadersAreGivenUp : Obligations.UnservedHeadersAreGivenUp :=
  fun _ => ⟨fun _ => rfl, fun _ _ _ => rfl⟩

/-- Settles O16: the operation awaits the length byte, whatever the register address. -/
theorem writeTurnsToItsLengthByte : Obligations.WriteTurnsToItsLengthByte :=
  fun _ _ => rfl

/-! ### Settled: whole frames -/

/-- Settles O36: the frame is served with the converter's answer in link order. -/
theorem readAdcFrameIsAnswered : Obligations.ReadAdcFrameIsAnswered :=
  fun _ _ _ idle running queue turns =>
    ⟨_, rfl, runSteps_served_read (k := .adcReading) idle running queue turns fun _ => rfl⟩

/-- Settles O37: the frame is served with the configuration's placeholder. -/
theorem readButtonFrameIsAnswered : Obligations.ReadButtonFrameIsAnswered :=
  fun _ _ _ idle running queue turns => runSteps_served_read (k := .buttonMask) idle running queue turns fun _ => rfl

/-- Settles O38: the frame is served with the token's two bytes. -/
theorem readStatusFrameIsAnswered : Obligations.ReadStatusFrameIsAnswered := by
  intro s rest ts idle running queue turns
  rw [runSteps_served_read (k := .statusToken) idle running queue turns exec_rdStatus]
  simp

/-- Settles O39: the frame is served with the estimator's answer in link order. -/
theorem readRateFrameIsAnswered : Obligations.ReadRateFrameIsAnswered :=
  fun _ _ _ idle running queue turns =>
    ⟨_, rfl, runSteps_served_read (k := .sampleRateEstimate) idle running queue turns fun _ => rfl⟩

/-- Settles O40: two pops, and a decode that gives the frame up. -/
theorem unservedFramesLoseTheirTwoBytes : Obligations.UnservedFramesLoseTheirTwoBytes := by
  intro s a r rest ts idle running queue turns unserved
  obtain ⟨c, abandoned⟩ := exec_unserved unserved
  rw [runSteps_header idle running queue turns, abandoned, State.abandon, idle]

/-- Settles O41: two pops, a decode that awaits the length byte, the length byte and as many payload bytes as it says. -/
theorem writeFrameIsDrained : Obligations.WriteFrameIsDrained := by
  intro s reg len payload rest ts idle running length queue turns
  rw [← length] at turns ⊢
  have turns : s.turns = .worker :: .worker :: .worker :: .worker :: (List.replicate payload.length .worker ++ ts) := by
    rw [turns, Nat.add_comm]
    rfl
  have header := runSteps_header idle running queue turns
  rw [decodeInstr_write, writeTurnsToItsLengthByte] at header
  rw [show 4 + payload.length = 3 + (payload.length + 1) by omega, runSteps_add header]
  refine Eq.trans (runSteps_length_and_payload running rfl rfl length rfl rfl) ?_
  simp [idle, Nat.add_assoc]

end Sys2Proof.Proofs

/-! SUPPORT. The host's status poll (`41_read_frames.md`, rule R135), settled, with the lemmas it needs: what a
register read of two bytes sends and returns. -/

namespace Sys2Proof.Machine

/-! ### The host's read of a two-byte register (rules R133, R135) -/

@[simp] theorem readRegister_sent (c : Config) (link : Link) (reg : Byte) (width : Nat) :
    (readRegister c link reg width).sent = encodeRead reg := rfl

@[simp] theorem encodeRead_bytes (reg : Byte) : encodeRead reg = [0xC8#8, reg] := by
  change [Config.hw.rdAddrByte, reg] = _
  rw [hw_rdAddrByte]

/-- Two bytes that came are assembled most significant byte first (rule R133). -/
theorem readRegister_two_bytes (reg a b : Byte) (rest : List Byte) :
    (readRegister Config.hw ⟨false, a :: b :: rest⟩ reg 2).result = .ok (a.toNat * 256 + b.toNat, rest) := by
  simp [readRegister, assemble]

/-- Two bytes assemble to the status token exactly where they are its own two. -/
theorem assembled_eq_token_iff (a b : Byte) :
    a.toNat * 256 + b.toNat = (0x4F4B#16).toNat ↔ a = 0x4F#8 ∧ b = 0x4B#8 := by
  rw [← BitVec.toNat_inj, ← BitVec.toNat_inj]
  simp only [BitVec.toNat_ofNat]
  omega

/-- The poll on two bytes that came says whether they are the token's (rule R135). -/
theorem readStatus_two_bytes (a b : Byte) (rest : List Byte) :
    (readStatus Config.hw ⟨false, a :: b :: rest⟩).result = .ok (decide (a = 0x4F#8 ∧ b = 0x4B#8)) := by
  simp only [readStatus, readRegister_two_bytes, hw_statusToken, ← assembled_eq_token_iff, beq_eq_decide]

end Sys2Proof.Machine

namespace Sys2Proof.Proofs

open Sys2Proof.Machine

/-! ### Settled: the host's status poll -/

/-- Settles O56: the poll compares the two bytes with the token's, which are the bytes that RD_STATUS latches. -/
theorem statusPollIsTrueOnTheTokenAlone : Obligations.StatusPollIsTrueOnTheTokenAlone := by
  refine ⟨?own, ?other, ?sent⟩
  case own =>
    intro s t h
    obtain rfl : _ = t := Host.Outcome.next.inj ((readStatusLatchesTheToken s).symm.trans h)
    exact readStatus_two_bytes 0x4F#8 0x4B#8 []
  case other =>
    intro a b rest other
    rw [readStatus_two_bytes, decide_eq_false other]
  case sent =>
    intro link
    rw [readStatus, readRegister_sent, encodeRead_bytes]

end Sys2Proof.Proofs

/-! SUPPORT. The statements about the host's client (`44_host_client.md`), settled, with the lemmas they need: the bytes
that `encode_write` gives, what a register read or write of the client makes of what the link brings, and a run that
receives no more than one frame's worth of bytes. -/

namespace Sys2Proof

/-! ### The host's encoders (rules R130, R131) -/

/-- No READ for this device opens a `WR` frame. -/
theorem isWrite_decodeInstr_read (r : Byte) : (decodeInstr 0xC8#8 r).isWrite = false := by
  rw [decodeInstr_read]
  split_ifs <;> rfl

theorem encodeWrite_of_le {p : List Byte} (short : p.length ≤ 255) (r : Byte) :
    encodeWrite r p = .ok (0x48#8 :: r :: BitVec.ofNat 8 p.length :: p) :=
  if_neg (Nat.not_lt.2 short)

theorem encodeWrite_of_lt {p : List Byte} (long : 255 < p.length) (r : Byte) :
    encodeWrite r p = .error .payloadTooLarge :=
  if_pos long

/-- The frame decoder recovers the register and the payload of a write frame (rules R73, R131). -/
theorem decodeFrame_own_write {p : List Byte} (short : p.length ≤ 255) (r : Byte) :
    decodeFrame (0x48#8 :: r :: BitVec.ofNat 8 p.length :: p) = .ok (⟨.wr r, p⟩, []) := by
  have payload := decodePayload_of_length (toNat_lengthByte short).symm (.wr r) []
  rw [List.append_nil] at payload
  rw [decodeFrame_write, payload]

/-- The frame decoder reads a whole READ frame from this device's READ header (rules R63, R73). -/
theorem decodeFrame_own_read (r : Byte) : decodeFrame [0xC8#8, r] = .ok (⟨decodeInstr 0xC8#8 r, []⟩, []) := by
  rw [decodeFrame, decode_two]
  simp only [isWrite_decodeInstr_read, Bool.false_eq_true, if_false]

end Sys2Proof

namespace Sys2Proof.Machine

/-! ### What the client makes of the link (rules R133, R134) -/

/-- One byte that came is the value (rule R133). -/
theorem readRegister_one_byte (reg a : Byte) (rest : List Byte) :
    (readRegister Config.hw ⟨false, a :: rest⟩ reg 1).result = .ok (a.toNat, rest) := by
  simp [readRegister, assemble]

theorem readRegister_of_failed {link : Link} (failed : link.failed = true) (c : Config) (reg : Byte) (width : Nat) :
    (readRegister c link reg width).result = .error .linkError :=
  if_pos failed

theorem readRegister_of_short {link : Link} {width : Nat} (works : link.failed = false)
    (short : link.input.length < width) (c : Config) (reg : Byte) :
    (readRegister c link reg width).result = .error .timeout := by
  simp [readRegister, works, short]

/-- A payload that `encode_write` refuses is not sent (rule R134). -/
theorem writeRegister_of_error {reg : Byte} {payload : List Byte} {e : HostError}
    (refused : encodeWrite reg payload = .error e) (link : Link) :
    writeRegister link reg payload = ⟨[], .error e⟩ := by
  rw [writeRegister, refused]

/-- The frame that `encode_write` gives is sent, and a status byte that comes decides (rule R134). -/
theorem writeRegister_of_ok {reg : Byte} {payload frame : List Byte} (encoded : encodeWrite reg payload = .ok frame)
    (b : Byte) (rest : List Byte) :
    writeRegister ⟨false, b :: rest⟩ reg payload = ⟨frame, .ok (decide (b = 0#8), rest)⟩ := by
  rw [writeRegister, encoded]
  rfl

/-! ### A run that receives few bytes (rule R153) -/

/-- From an empty queue, turns that bring no more bytes than the queue holds have none dropped, even where the worker
takes none: all of them are as one frame. -/
theorem noDrop_of_rxBytes_le {l ts : List Turn} {s : State} (hi : s.Inv) (queue : s.q = []) (turns : s.turns = l ++ ts)
    (fits : (rxBytes l).length ≤ Config.hw.qcap) : s.NoDrop l.length := by
  have start : WithinFrame (rxBytes l) l s :=
    { inv := hi
      fits := fits
      part := by rw [State.coming, queue]; exact List.infix_rfl }
  exact start.noDrop turns

end Sys2Proof.Machine

namespace Sys2Proof.Proofs

open Sys2Proof.Machine

/-! ### Settled: the host's client -/

/-- Settles O10: the length decides, and the length byte of a payload that is let through is its length. -/
theorem encodeWriteGivesTheFrameOrFails : Obligations.EncodeWriteGivesTheFrameOrFails :=
  fun r _ =>
    ⟨fun short => ⟨_, encodeWrite_of_le short r, rfl, decodeHeader_addressByte false 0x48#7 r,
      decodeFrame_own_write short r⟩,
    fun long => encodeWrite_of_lt long r⟩

/-- Settles O54: the queue is empty at a clean entry and has room for 258 bytes at least. -/
theorem oneFramesWorthOfBytesIsNeverDropped : Obligations.OneFramesWorthOfBytesIsNeverDropped := by
  intro n s entry hn few
  obtain ⟨queue, -⟩ := id entry
  have room := noDrop_of_rxBytes_le (inv_of_cleanEntry entry) queue (List.take_append_drop n _).symm
    (few.trans qcap_ge)
  rwa [List.length_take_of_le hn] at room

/-- Settles O9: the two bytes, and what either decoder makes of them. -/
theorem encodeReadGivesTheFrame : Obligations.EncodeReadGivesTheFrame :=
  fun r => ⟨encodeRead_bytes r, decodeHeader_addressByte true 0x48#7 r,
    by rw [encodeRead_bytes, decodeFrame_own_read]⟩

/-- Settles O57: one lemma for each way a read can end. -/
theorem readRegisterAssemblesOrFails : Obligations.ReadRegisterAssemblesOrFails :=
  fun reg a b rest w link =>
    ⟨(readRegister_sent Config.hw link reg w).trans (encodeRead_bytes reg), readRegister_one_byte reg a rest,
      readRegister_two_bytes reg a b rest, fun failed => readRegister_of_failed failed Config.hw reg w,
      fun works short => readRegister_of_short works short Config.hw reg⟩

/-- Settles O58: what `encode_write` answers decides whether anything is sent, and then the status byte whether the
write succeeded. -/
theorem writeRegisterSucceedsOnStatusZero : Obligations.WriteRegisterSucceedsOnStatusZero := by
  intro reg b payload rest
  refine ⟨fun short => ?_, fun long => ?_⟩
  · rw [writeRegister_of_ok (encodeWrite_of_le short reg)]
    exact ⟨rfl, rfl⟩
  · rw [writeRegister_of_error (encodeWrite_of_lt long reg)]
    exact ⟨rfl, rfl⟩

end Sys2Proof.Proofs

/-! SUPPORT. The statements about events and exceptions (`60_exceptions.md`), settled, with the lemmas they need: what
a push leaves of the queue, the rules of the turns that have none yet, what moves `DataReady`, and that a running worker
does not look at `Stop`. -/

namespace Sys2Proof.Machine

/-! ### The push (rules R8, R153) -/

/-- A push with room appends. -/
theorem queuePush_of_lt {cap : Nat} {q : List Byte} (room : q.length < cap) (b : Byte) :
    queuePush cap b q = q ++ [b] :=
  if_pos room

/-- A push at a full queue drops the incoming byte. -/
theorem queuePush_of_le {cap : Nat} {q : List Byte} (full : cap ≤ q.length) (b : Byte) : queuePush cap b q = q :=
  if_neg (Nat.not_lt.2 full)

/-- A push does not take a queue past its capacity. -/
theorem length_queuePush_le {cap : Nat} {q : List Byte} (fits : q.length ≤ cap) (b : Byte) :
    (queuePush cap b q).length ≤ cap := by
  rcases Nat.lt_or_ge q.length cap with room | full
  · rw [queuePush_of_lt room, List.length_append]
    exact room
  · rwa [queuePush_of_le full]

/-- A push keeps the bytes already held, in order. -/
theorem isPrefix_queuePush (cap : Nat) (b : Byte) (q : List Byte) : q <+: queuePush cap b q := by
  rcases Nat.lt_or_ge q.length cap with room | full
  · rw [queuePush_of_lt room]
    exact ⟨[b], rfl⟩
  · rw [queuePush_of_le full]

/-! ### One rule per step, by its turn: `Stopped`, the full queue, the raising of `Stop`, the exit -/

/-- The handler does nothing once stopped (rule R152). -/
theorem iPush_of_stopped {s : State} (dead : s.phase = .stopped) (cap : Nat) (b : Byte) : iPush cap b s = s :=
  if_pos dead

/-- `StopReq` does nothing once stopped (rule R155). -/
theorem sRaise_of_stopped {s : State} (dead : s.phase = .stopped) : sRaise s = s :=
  if_pos dead

/-- Once stopped, every turn but reset passes without effect (rules R171, R215). -/
theorem step_of_stopped {s : State} (dead : s.phase = .stopped) (turn : s.nextTurn ≠ .reset) :
    step s = .next s.advanceTurn := by
  rcases step_cases s with ⟨b, -, h⟩ | ⟨-, h⟩ | ⟨reset, -⟩ | ⟨w, next, -⟩ | ⟨-, -, h⟩
  · rw [h, iPush_of_stopped (s := s.advanceTurn) dead]
  · rw [h, sRaise_of_stopped (s := s.advanceTurn) dead]
  · exact absurd reset turn
  · simp [next_stopped dead] at next
  · exact h

/-- A byte received at a full queue is dropped, and raises `DataReady` all the same (rule R152). -/
theorem step_of_rxByte_full {s : State} {b : Byte} (turn : s.nextTurn = .rxByte b) (live : s.phase ≠ .stopped)
    (full : Config.hw.qcap ≤ s.q.length) : step s = .next { s.advanceTurn with dataReady := true } := by
  simp [step, runTurn, turn, iPush, queuePush_of_le full, State.raiseDataReady, live]

/-- The raising of `Stop` (rule R155). -/
theorem step_of_stopReq {s : State} (turn : s.nextTurn = .stopReq) (live : s.phase ≠ .stopped) :
    step s = .next { s.advanceTurn with stop := true } := by
  simp [step, runTurn, turn, sRaise, State.raiseStop, live]

/-- The exit at the wait (rule R83). -/
theorem step_of_stop {s : State} (turn : s.nextTurn = .worker) (blocked : s.wk = .blocked) (idle : s.phase = .idle)
    (raised : s.stop = true) : step s = .next (wStop s.advanceTurn) :=
  step_worker (next_wStop blocked idle raised) (by simp [turn, grants])

/-! ### What moves `DataReady` (rule R154) -/

/-- Of all effects only a push, at a full queue or not, raises `DataReady`. -/
theorem rxByte_of_dataReady_raised {s t : State} (he : StepEffect s t) (clear : s.dataReady = false)
    (raised : t.dataReady = true) : ∃ b, s.nextTurn = .rxByte b := by
  cases he with
  | push b turn | drop b turn => exact ⟨b, turn⟩
  | reset | stop | wake => cases raised
  | _ => exact absurd (clear.symm.trans raised) Bool.false_ne_true

/-- Of all effects only reset, the wake and the exit clear `DataReady`. -/
theorem turn_of_dataReady_cleared {s t : State} (he : StepEffect s t) (raised : s.dataReady = true)
    (clear : t.dataReady = false) : s.nextTurn = .reset ∨
      (s.nextTurn = .worker ∧ (nextWorkerStep s = some .wWake ∨ nextWorkerStep s = some .wStop)) := by
  cases he with
  | reset turn => exact .inl turn
  | wake turn next => exact .inr ⟨turn, .inl next⟩
  | stop turn next => exact .inr ⟨turn, .inr next⟩
  | push | drop => cases clear
  | _ => exact absurd (clear.symm.trans raised) Bool.false_ne_true

/-! ### Where `Stop` is looked at (rule R158) -/

/-- Only the two steps of the wait look at `Stop`, and a running worker is not at the wait. -/
theorem enabled_stop_of_running {s : State} (running : s.wk = .running) (b : Bool) (w : WorkerStep) :
    enabled w { s with stop := b } = enabled w s := by
  cases w with
  | wStop | wWake =>
    simp only [enabled, running]
    rfl
  | _ => rfl

end Sys2Proof.Machine

namespace Sys2Proof.Proofs

open Sys2Proof.Machine

/-! ### Settled: events and exceptions -/

/-- Settles O30: the rule of a `StopReq` turn, that of `Stopped`, and that no other effect raises `Stop`. -/
theorem onlyStopReqRaisesStop : Obligations.OnlyStopReqRaisesStop := by
  refine ⟨fun s turn => ⟨fun live => step_of_stopReq turn live, fun dead => step_of_stopped dead (by simp [turn])⟩,
    fun s t h clear raised => ?_⟩
  by_contra other
  exact absurd (stop_false_of_stepEffect (step_effect h) clear other) (by simp [raised])

/-- Settles O31: by the effect of the step. -/
theorem dataReadyIsRaisedByBytesAlone : Obligations.DataReadyIsRaisedByBytesAlone :=
  fun _ _ h => ⟨rxByte_of_dataReady_raised (step_effect h), turn_of_dataReady_cleared (step_effect h)⟩

/-- Settles O22: the exit is the step offered at the wait, and no condition on a running worker's steps has `Stop` in
it. -/
theorem stopAtTheWaitReleasesAndExits : Obligations.StopAtTheWaitReleasesAndExits := by
  refine ⟨fun s turn blocked idle raised => step_of_stop turn blocked idle raised, fun s b running => ?_⟩
  simp only [nextWorkerStep, enabled_stop_of_running running]

/-- Settles O28: the rule of `Stopped`, and those of a byte received with room and at a full queue. -/
theorem handlerPushesThenRaises : Obligations.HandlerPushesThenRaises :=
  fun _ _ turn =>
    ⟨fun dead => step_of_stopped dead (by simp [turn]), step_of_rxByte turn, step_of_rxByte_full turn⟩

/-- Settles O29: the two cases of the push. -/
theorem overflowDropsTheIncomingByte : Obligations.OverflowDropsTheIncomingByte :=
  fun cap b q =>
    ⟨fun fits => length_queuePush_le fits b, fun full => queuePush_of_le full.ge b, isPrefix_queuePush cap b q⟩

/-- Settles O32: every turn but reset passes in `Stopped`, where no worker step is offered. -/
theorem stoppedIsLeftByResetAlone : Obligations.StoppedIsLeftByResetAlone :=
  fun _ dead turn => ⟨step_of_stopped dead turn, next_stopped dead⟩

end Sys2Proof.Proofs

namespace Sys2Proof.Proofs

open Sys2Proof.Machine

/-! ### Settled: reset and hazards (`70_reset_and_hazards.md`) -/

/-- Settles O45: the handler, the raising of `Stop`, reset and the passing of a turn answer their state outright; a
worker step does too, and its decode because every operation does (`exec_cases`). -/
theorem everyStepHasANextState : Obligations.EveryStepHasANextState := exists_step_next

end Sys2Proof.Proofs

/-! SUPPORT. The statement about the placing of a table word (`30_encoding.md` section 3), settled, with the lemma it
needs: which operation a table word decodes to. -/

namespace Sys2Proof

/-- A table word always holds a whole header, so its decode does not fail (rule R68). -/
theorem decodeTableWord_eq_some (nbits w : Nat) : decodeTableWord nbits w =
    some (decodeInstr (headerByte0 (tableHeader nbits w)) (headerByte1 (tableHeader nbits w))) := by
  rw [decodeTableWord, decode_two]

end Sys2Proof

namespace Sys2Proof.Proofs

open Sys2Proof.Machine

/-! ### Settled: the placing of a table word -/

/-- Settles O20: the operation is the one the placed latches decode to, which the worker's turn, placed in front of all
others, runs (`step_of_header`). -/
theorem placedWordRunsNext : Obligations.PlacedWordRunsNext := fun s nbits w =>
  ⟨_, decodeTableWord_eq_some nbits w, step_of_header (s := s.withFetchWord nbits w) rfl rfl rfl⟩

end Sys2Proof.Proofs
